-- ==== Sys2Proof/Word.lean ====
section
/-! DEFINITION. The words of the part: bytes, line addresses, text, contention keys and post words. -/

namespace Sys2Proof

/-- One byte; also one 8-bit character of a serial port. -/
abbrev Byte := BitVec 8

/-- A line address, 0..15 (file 00, Table 1-1). -/
abbrev Addr := BitVec 4

/-- A text of ASCII codes. -/
abbrev Text := List Byte

/-- The twelve contention key cells, cell 266 most significant (R39). -/
abbrev Key := BitVec 12

/-- The sixteen cells of a post, first cell most significant (R20, Table 2-5). -/
abbrev PostWord := BitVec 16

end Sys2Proof
end

