-- ==== Sys2Proof/Config.lean ====
section
/-! DEFINITION. What an implementation fixes: capacities, the profile parameters with their defaults, and the one
free value of the model. -/

namespace Sys2Proof

/-- The contents of the marking link's shift register after an exchange that a stop ended (R169 says the exchange
ends at once, not what stands in the register). A free value: no body, applied to a plain counter (log 7). -/
opaque Config.freeLinkWord : Nat → BitVec 24

/-- Places of the transmit queue (R46). -/
def Config.txCap : Nat := 4
/-- Places of the infeed queue (R13). -/
def Config.infeedCap : Nat := 8
/-- Places of the direct queue (R13). -/
def Config.directCap : Nat := 4
/-- Places of the arrival queue (R13, R159). -/
def Config.arrivalCap : Nat := 6
/-- Lines of the record buffer (R176). -/
def Config.recordCap : Nat := 4
/-- Lines that port B of the INSPECT station holds waiting (R60). -/
def Config.replyCap : Nat := 4
/-- Consecutive released cells of the idle span (R18). -/
def Config.idleSpan : Nat := 1024
/-- Sample ticks in one second (R91: seconds times 20). -/
def Config.ticksPerSecond : Nat := 20
/-- Characters of a port A line (R57, R166). -/
def Config.portACap : Nat := 64
/-- Characters of a port B line at INSPECT (R57). -/
def Config.portBCap : Nat := 32
/-- Samples of a window (R130). -/
def Config.windowSize : Nat := 16
/-- Unaccepted sendings that drop a directed message (R48). -/
def Config.dropCount : Nat := 4
/-- Unaccepted sendings of offers for one front docket that show OFFER_STALL (R51). -/
def Config.stallCount : Nat := 8
/-- Rounds behind at which an unreadable peer is stale (R34). -/
def Config.staleRounds : Nat := 64

/-- One entry of the class table (R67). What the fields of an undefined entry hold the spec does not say, and nothing reads
them: the lower limit of each range, and ree_applies clear (DESIGN CHOICE, log 41). -/
structure ClassEntry where
  defined : Bool := false
  intervalYears : Nat := 1
  holdTime : Nat := 10
  ratioLimit : Nat := 100
  massLossLimit : Nat := 0
  reeApplies : Bool := false
deriving DecidableEq, Repr

/-- One entry of the lot hold table (Table 5-1); a match field of `none` is ANY. What the match fields and the action of
an entry with valid clear hold the spec does not say, and nothing reads them: ANY, and HOLD (R77; DESIGN CHOICE,
log 41). -/
structure LotEntry where
  valid : Bool := false
  mfr : Option Text := none
  mfgYear : Option Nat := none
  serial : Option (Nat × Nat) := none
  cls : Option Nat := none
  condemn : Bool := false
deriving DecidableEq, Repr

/-- The parameters of Table 11-3, each at its default (R183). `gB`, `cT` are G_b, C_t; `eTMin`, `nUnder` are E_t_min,
N_under. -/
structure Params where
  pacingGap : Nat := 40
  keepAlive : Nat := 1000
  rdrRate : Nat := 96
  trmRate : Nat := 96
  residualLimit : Nat := 50
  earlyWindow : Nat := 3
  mrkRate : Nat := 96
  recRate : Nat := 96
  arrivalTime : Nat := 120
  callTime : Nat := 20
  plantMark : Text := [0x52, 0x51]
  ratingKpa : Nat := 500
  capacity : Nat := 5
  k : Nat := 1
  loadTime : Nat := 60
  fillTime : Nat := 240
  rampTime : Nat := 90
  drainTime : Nat := 20
  unloadTime : Nat := 45
  rampPatience : Nat := 30
  tripDwell : Nat := 10
  ventDone : Nat := 50
  pOff : Nat := 0
  pGain : Nat := 4096
  tOff : Nat := 0
  tGain : Nat := 4096
  settleSkip : Nat := 10
  tStab : Nat := 8
  bandPm : Nat := 30
  condPm : Nat := 100
  dropPm : Nat := 10
  gB : Nat := 2048
  cT : Nat := 0
  eTMin : Nat := 100
  nUnder : Nat := 100
  classes : List ClassEntry := List.replicate 8 ({} : ClassEntry)
  lots : List LotEntry := List.replicate 16 ({} : LotEntry)
deriving DecidableEq, Repr

end Sys2Proof
end

