-- ==== Sys2Proof/Syntax.lean ====
section
/-! DEFINITION. The commands of the part, one constructor for each row of spec/opcode_table.json, with the operands
the outside gives each. -/

namespace Sys2Proof

/-- A run of cells read in IDLE_WAIT (R18): `n` cells read released, or one cell read low. -/
inductive LineRun where
  | released (n : Nat)
  | low
deriving DecidableEq, Repr

/-- A frame as a station reads it in the message window (Table 3-2), key included (R42). -/
structure Frame where
  key : Key
  dest : Byte
  len : Byte
  body : List Byte
  crc : BitVec 16
deriving DecidableEq, Repr

/-- A character as a serial port receives it (R57). -/
structure PortChar where
  code : Byte
  framingError : Bool := false
deriving DecidableEq, Repr

/-- A line up to, and without, its line feed (R57). `partBeforeRelease` says that part of it was received before the
line interface was released. -/
structure PortLine where
  chars : List PortChar
  partBeforeRelease : Bool := false
deriving DecidableEq, Repr

/-- The level and edge inputs as read at one tick of 50 ms (R88, R156, R174); `true` is active. -/
structure Pins where
  seat : Bool := false
  lidClosed : Bool := false
  jacketFull : Bool := false
  bleedWet : Bool := false
  unloadClear : Bool := false
  psw : Bool := false
  estop : Bool := false
  abort : Bool := false
  clear : Bool := false
deriving DecidableEq, Repr

/-- The codes of one sample (R124). -/
structure Sample where
  level : BitVec 16
  press : BitVec 16
  temp : BitVec 16
deriving DecidableEq, Repr

/-- What the marking link drew after a command (R169): no start bit within 64 clocks; a word with its stop bit; or a
stop reported during the exchange, which ends it. -/
inductive LinkReply where
  | silent
  | word (w : BitVec 24) (stopBit : Bool)
  | stopped
deriving DecidableEq, Repr

/-- Whether an event of a head's tick is taken ahead of the use of that tick's sample, or after it (log 3). An event
ahead of it carries what the head read at the tick: all inputs and channels are read at once (R88, R124). An event
between two ticks is `afterSample`. -/
inductive TickOrder where
  | beforeSample (pins : Pins) (sample : Sample)
  | afterSample
deriving DecidableEq, Repr

/-- The three movement channels of the INSPECT station (R72). -/
inductive ChannelName where
  | stage
  | infeed
  | bypass
deriving DecidableEq, Repr

/-- The commands. -/
inductive Instr where
  /-- POWER_ON_RESET (R180). -/
  | powerOnReset
  /-- PIN_RESET (R180). -/
  | pinReset
  /-- RESET_RELEASE (R181): the straps as sampled; `cellHigh` is the CELL strap. -/
  | resetRelease (addr : Addr) (role : BitVec 2) (cellHigh : Bool)
  /-- PROFILE_READ_COMPLETE (R182): the bytes read; the SEAT and INFEED_CLEAR levels at the release that may follow. -/
  | profileReadComplete (image : List Byte) (seat : Bool) (infeedClear : Bool)
  /-- IDLE_SPAN (R18): the cells read. -/
  | idleSpan (cells : List LineRun)
  /-- CALL_MADE (R19): cells 1 to 4 as read, cell 1 most significant. -/
  | callMade (read : BitVec 4)
  /-- CALL_JOINED (R19): cells 1 to 4 as read. -/
  | callJoined (read : BitVec 4)
  /-- POST (R20): the station's own post as read back. -/
  | post (read : PostWord)
  /-- INCOMPLETE_ROUND_END (R22). -/
  | incompleteRoundEnd
  /-- CONTENTION (R39): the key cells as read. -/
  | contention (read : Key)
  /-- MESSAGE_SEND (R41): the cells of the own frame as read back, from cell 278 to the last CRC cell, in bytes. -/
  | messageSend (read : List Byte)
  /-- ACCEPT_FIELD_READ (R45): the accept field as its sender reads it. -/
  | acceptFieldRead (read : Byte)
  /-- MESSAGE_DROPPED (R48). -/
  | messageDropped
  /-- DOCKET_OFFER (R50): the frame received; the accept field as read back if the station writes it. -/
  | docketOffer (f : Frame) (acceptRead : Byte)
  /-- RELEASE_CALL (R52). -/
  | releaseCall (f : Frame) (acceptRead : Byte)
  /-- DOCKET_DIRECT (R160). -/
  | docketDirect (f : Frame) (acceptRead : Byte)
  /-- DOCKET_RETURN (R161). -/
  | docketReturn (f : Frame) (acceptRead : Byte)
  /-- STATION_CARD (R53). -/
  | stationCard (f : Frame)
  /-- VERDICT_NOTE (R84). -/
  | verdictNote (f : Frame)
  /-- ROUND_END (R32): the sixteen posts as read, by address; close cell 263 as read. -/
  | roundEnd (posts : List PostWord) (cell263 : Bool)
  /-- PACING_EXPIRY (R24). -/
  | pacingExpiry
  /-- KEEP_ALIVE_EXPIRY (R25). -/
  | keepAliveExpiry
  /-- SILENCE_EXPIRY (R26). -/
  | silenceExpiry (order : TickOrder)
  /-- SAMPLE_TICK (R124). -/
  | sampleTick (pins : Pins) (sample : Sample)
  /-- RESPONSE_COMPLETE (R148). -/
  | responseComplete
  /-- ESTOP (R145). -/
  | estop (order : TickOrder)
  /-- PSW (R145). -/
  | psw (order : TickOrder)
  /-- ABORT (R145). -/
  | abort (order : TickOrder)
  /-- LID_OPEN (R145). -/
  | lidOpen (order : TickOrder)
  /-- SEAT_ACTIVE (R93). -/
  | seatActive (order : TickOrder)
  /-- LID_CLOSED (R94). -/
  | lidClosed (order : TickOrder)
  /-- FILL_COMPLETE (R94). -/
  | fillComplete (order : TickOrder)
  /-- LOAD_TIMEOUT (R93). -/
  | loadTimeout (order : TickOrder)
  /-- FILL_TIMEOUT (R94). -/
  | fillTimeout (order : TickOrder)
  /-- RAMP_TIMEOUT (R97). -/
  | rampTimeout (order : TickOrder)
  /-- HOLD_TIMER_EXPIRY (R98). -/
  | holdTimerExpiry (order : TickOrder)
  /-- DRAIN_TIMER_EXPIRY (R101). -/
  | drainTimerExpiry (order : TickOrder)
  /-- URGENT_FLAG_SET (R117). -/
  | urgentFlagSet (order : TickOrder)
  /-- UNLOAD_COMPLETE (R104). -/
  | unloadComplete (order : TickOrder)
  /-- UNLOAD_TIMEOUT (R104). -/
  | unloadTimeout (order : TickOrder)
  /-- CLEAR_EDGE (R110). -/
  | clearEdge (order : TickOrder)
  /-- STOP_REPORTED (R156). -/
  | stopReported
  /-- STOP_ENDED (R156). -/
  | stopEnded
  /-- INFEED_CLEAR (R55). -/
  | infeedClear
  /-- READER_LINE (R59). -/
  | readerLine (line : PortLine)
  /-- PERIOD (R61): the whole terminal line, keyword included; so for the next six. -/
  | period (line : PortLine)
  /-- MASS (R62). -/
  | mass (line : PortLine)
  /-- FIND (R63). -/
  | find (line : PortLine)
  /-- CLOSE (R66). -/
  | close (line : PortLine)
  /-- CANCEL (R64). -/
  | cancel (line : PortLine)
  /-- CLEAR_ENTRY (R65). -/
  | clearEntry (line : PortLine)
  /-- DOCKET_JOIN (R71). -/
  | docketJoin
  /-- PULSE_END (R72): the channel whose pulse ends. -/
  | pulseEnd (channel : ChannelName)
  /-- TERMINAL_REPLY_SENT (R60). -/
  | terminalReplySent
  /-- MARK_READER_LINE (R166). -/
  | markReaderLine (line : PortLine)
  /-- LINK_CLEAR (R169). -/
  | linkClear (reply : LinkReply)
  /-- LINK_LOAD (R171). -/
  | linkLoad (reply : LinkReply)
  /-- LINK_QUERY (R171). -/
  | linkQuery (reply : LinkReply)
  /-- LINK_STRIKE (R171). -/
  | linkStrike (reply : LinkReply)
  /-- STRIKE_TIMEOUT (R171). -/
  | strikeTimeout
  /-- PUNCH_DONE (R173). -/
  | punchDone
  /-- PUNCH_TIMEOUT (R173). -/
  | punchTimeout
  /-- LANE_RELEASE_END (R168). -/
  | laneReleaseEnd
  /-- DISPOSE_CLEAR (R174): the reply drawn if a CLEAR is sent to the marking head. -/
  | disposeClear (reply : LinkReply)
  /-- ARRIVAL_TIMEOUT (R162): the place of the docket in the arrival queue, the front 0. -/
  | arrivalTimeout (place : Nat)
  /-- CALL_TIMEOUT (R165). -/
  | callTimeout
  /-- RECORD_LINE_SENT (R176): REC_CTS has read active before each character of the oldest line, its line feed included;
  or, with `cts` false, it reads inactive before one of them, and the port waits. -/
  | recordLineSent (cts : Bool := true)
  /-- LAMP_REPEAT (R185). -/
  | lampRepeat
  /-- PUNCH_PULSE_END (R173). -/
  | punchPulseEnd
  /-- UNKNOWN_KEYWORD (R60). -/
  | unknownKeyword (line : PortLine)
deriving DecidableEq, Repr

end Sys2Proof
end

