-- ==== Sys2Proof/WellFormed.lean ====
section
/-! DEFINITION. Which command terms can come from outside: the checks on operands that their types do not carry. -/

namespace Sys2Proof

/-- The frame's body is what its length field makes a receiver read (R42): the bytes counted, or none above 60. -/
def Frame.bodyRead (f : Frame) : Bool :=
  if f.len.toNat ≤ 60 then f.body.length == f.len.toNat else f.body.isEmpty

/-- The kind field of the frame's key (R40, Table 3-2). -/
def Frame.kindField (f : Frame) : Nat := (f.key.extractLsb' 8 3).toNat

/-- A received frame of kind code `kind`, read as its length says. -/
def Frame.wellFormed (kind : Nat) (f : Frame) : Bool := f.kindField == kind && f.bodyRead

/-- A line holds no line feed: the line feed ends it (R57). One received with a framing error is a bad character of the
line and does not end it: the spec does not say (DESIGN CHOICE, log 19). -/
def PortLine.wellFormed (l : PortLine) : Bool := l.chars.all fun c => c.code != 0x0A || c.framingError

/-- The characters of a line before its first space. -/
def PortLine.keyword (l : PortLine) : Text := (l.chars.map PortChar.code).takeWhile (· != 0x20)

/-- The ASCII codes of a string. -/
def ascii (s : String) : Text := s.toList.map fun c => BitVec.ofNat 8 c.toNat

/-- The six keywords of Table 4-4. -/
def terminalKeywords : List Text :=
  [ascii "PERIOD", ascii "MASS", ascii "FIND", ascii "CLOSE", ascii "CANCEL", ascii "CLEAR"]

/-- A terminal line of the keyword `k`; a carriage return before the line feed may end a line without arguments. -/
def PortLine.entry (k : Text) (l : PortLine) : Bool :=
  l.wellFormed && (l.keyword == k || l.keyword == k ++ [0x0D])

/-- The inputs read at the tick agree with the event that is taken at it (R88). -/
def TickOrder.reads (o : TickOrder) (f : Pins → Bool) : Bool :=
  match o with
  | .beforeSample p _ => f p
  | .afterSample => true

/-- The well-formed commands. -/
def Instr.wellFormed : Instr → Bool
  | .powerOnReset => true
  | .pinReset => true
  | .resetRelease _ _ _ => true
  | .profileReadComplete image _ _ => image.length ≤ 1024
  | .idleSpan _ => true
  | .callMade _ => true
  | .callJoined _ => true
  | .post _ => true
  | .incompleteRoundEnd => true
  | .contention _ => true
  | .messageSend read => 4 ≤ read.length && read.length ≤ 64
  | .acceptFieldRead _ => true
  | .messageDropped => true
  | .docketOffer f _ => f.wellFormed 4
  | .releaseCall f _ => f.wellFormed 2
  | .docketDirect f _ => f.wellFormed 3
  | .docketReturn f _ => f.wellFormed 1
  | .stationCard f => f.wellFormed 6
  | .verdictNote f => f.wellFormed 5
  | .roundEnd posts _ => posts.length == 16
  | .pacingExpiry => true
  | .keepAliveExpiry => true
  | .silenceExpiry _ => true
  | .sampleTick _ _ => true
  | .responseComplete => true
  | .estop o => o.reads Pins.estop
  | .psw o => o.reads Pins.psw
  | .abort o => o.reads Pins.abort
  | .lidOpen o => o.reads (fun p => !p.lidClosed)
  | .seatActive o => o.reads Pins.seat
  | .lidClosed o => o.reads Pins.lidClosed
  | .fillComplete o => o.reads (fun p => p.jacketFull && p.bleedWet)
  | .loadTimeout _ => true
  | .fillTimeout _ => true
  | .rampTimeout _ => true
  | .holdTimerExpiry _ => true
  | .drainTimerExpiry _ => true
  | .urgentFlagSet _ => true
  | .unloadComplete o => o.reads (fun p => !p.seat && p.unloadClear)
  | .unloadTimeout _ => true
  | .clearEdge o => o.reads Pins.clear
  | .stopReported => true
  | .stopEnded => true
  | .infeedClear => true
  | .readerLine line => line.wellFormed
  | .period line => line.entry (ascii "PERIOD")
  | .mass line => line.entry (ascii "MASS")
  | .find line => line.entry (ascii "FIND")
  | .close line => line.entry (ascii "CLOSE")
  | .cancel line => line.entry (ascii "CANCEL")
  | .clearEntry line => line.entry (ascii "CLEAR")
  | .docketJoin => true
  | .pulseEnd _ => true
  | .terminalReplySent => true
  | .markReaderLine line => line.wellFormed
  | .linkClear _ => true
  | .linkLoad _ => true
  | .linkQuery _ => true
  | .linkStrike _ => true
  | .strikeTimeout => true
  | .punchDone => true
  | .punchTimeout => true
  | .laneReleaseEnd => true
  | .disposeClear _ => true
  | .arrivalTimeout place => place < 6
  | .callTimeout => true
  | .recordLineSent _ => true
  | .lampRepeat => true
  | .punchPulseEnd => true
  | .unknownKeyword line => line.wellFormed && !terminalKeywords.any fun k => line.entry k

end Sys2Proof
end

