-- ==== Sys2Proof/Decode.lean ====
section
/-! DEFINITION. Reading a command from a table word. No row of spec/opcode_table.json gives bits (every row's
"fields" list is empty, and the reader's count of rows with fields is 0), so no word spells a command. -/

namespace Sys2Proof

/-- The command a table word spells: none, for the table gives no row any bits (log 31). -/
def decodeTableWord (_nbits _w : Nat) : Option Instr := none

end Sys2Proof
end

