-- ==== Sys2Proof/Machine/Codes.lean ====
section
/-! DEFINITION. The part's codes: roles, cause codes, docket codes and states, with their numbers and names. -/

namespace Sys2Proof.Machine

/-- The roles of a station (file 00, section 2). -/
inductive Role where
  | inspect | test | dispose
deriving DecidableEq, Repr

/-- The ROLE strap and the role field of posts and cards: 00, 01, 10; 11 is no role (R181, Table 2-5). -/
def Role.ofCode (c : BitVec 2) : Option Role :=
  match c.toNat with
  | 0 => some .inspect
  | 1 => some .test
  | 2 => some .dispose
  | _ => none

/-- The role code (Table 2-5). -/
def Role.code : Role → BitVec 2
  | .inspect => 0
  | .test => 1
  | .dispose => 2

/-- The reset kinds (R180). -/
inductive ResetCause where
  | powerOn | pin
deriving DecidableEq, Repr

/-- Every cause code of Table 1-5. -/
inductive Cause where
  | estop | overpressure | pressureSwitch | sensorRange | lidOpen | lineSilence | leakDrop | overband
  | rampTimeout | unsettled | creep | tempRange | fillTimeout | aborted | loadTimeout
  | expansionRatio | elasticOverRee | noExpansion | negativePermanent | permExceedsTotal | repeatInvalid
  | handoffFailed | unloadTimeout | orphan | roleConflict | addressConflict
  | peerStale | profileMismatch | offerStall
  | findingCondemn | massLoss | notEmpty | lotCondemn | lotHold | historyScrapped | badDate | unknownClass
  | noHead | notDue
  | stray | missing | markFault | markerSilent | punchFault
  | noProfile | profileCrc | profileRole | roleStrap | profileFormat
deriving DecidableEq, Repr

/-- The 6-bit code of a cause (Table 1-5). -/
def Cause.code : Cause → Nat
  | .estop => 1
  | .overpressure => 2
  | .pressureSwitch => 3
  | .sensorRange => 4
  | .lidOpen => 5
  | .lineSilence => 6
  | .leakDrop => 7
  | .overband => 8
  | .rampTimeout => 9
  | .unsettled => 10
  | .creep => 11
  | .tempRange => 12
  | .fillTimeout => 13
  | .aborted => 14
  | .loadTimeout => 15
  | .expansionRatio => 16
  | .elasticOverRee => 17
  | .noExpansion => 18
  | .negativePermanent => 19
  | .permExceedsTotal => 20
  | .repeatInvalid => 21
  | .handoffFailed => 24
  | .unloadTimeout => 25
  | .orphan => 26
  | .roleConflict => 27
  | .addressConflict => 28
  | .peerStale => 29
  | .profileMismatch => 30
  | .offerStall => 31
  | .findingCondemn => 32
  | .massLoss => 33
  | .notEmpty => 34
  | .lotCondemn => 35
  | .lotHold => 36
  | .historyScrapped => 37
  | .badDate => 38
  | .unknownClass => 39
  | .noHead => 40
  | .notDue => 41
  | .stray => 48
  | .missing => 49
  | .markFault => 50
  | .markerSilent => 51
  | .punchFault => 52
  | .noProfile => 56
  | .profileCrc => 57
  | .profileRole => 58
  | .roleStrap => 59
  | .profileFormat => 60

/-- Every cause, in the order of the codes. -/
def Cause.all : List Cause :=
  [.estop, .overpressure, .pressureSwitch, .sensorRange, .lidOpen, .lineSilence, .leakDrop, .overband,
   .rampTimeout, .unsettled, .creep, .tempRange, .fillTimeout, .aborted, .loadTimeout,
   .expansionRatio, .elasticOverRee, .noExpansion, .negativePermanent, .permExceedsTotal, .repeatInvalid] ++
  [.handoffFailed, .unloadTimeout, .orphan, .roleConflict, .addressConflict,
   .peerStale, .profileMismatch, .offerStall,
   .findingCondemn, .massLoss, .notEmpty, .lotCondemn, .lotHold, .historyScrapped, .badDate, .unknownClass,
   .noHead, .notDue, .stray, .missing, .markFault, .markerSilent, .punchFault,
   .noProfile, .profileCrc, .profileRole, .roleStrap, .profileFormat]

/-- The cause a code names, if one does (Table 1-5, R12). -/
def Cause.ofCode (n : Nat) : Option Cause := Cause.all.find? fun c => c.code == n

/-- The name of a cause as record lines and replies write it (Table 1-5, R176). -/
def Cause.name : Cause → Text
  | .estop => ascii "ESTOP"
  | .overpressure => ascii "OVERPRESSURE"
  | .pressureSwitch => ascii "PRESSURE_SWITCH"
  | .sensorRange => ascii "SENSOR_RANGE"
  | .lidOpen => ascii "LID_OPEN"
  | .lineSilence => ascii "LINE_SILENCE"
  | .leakDrop => ascii "LEAK_DROP"
  | .overband => ascii "OVERBAND"
  | .rampTimeout => ascii "RAMP_TIMEOUT"
  | .unsettled => ascii "UNSETTLED"
  | .creep => ascii "CREEP"
  | .tempRange => ascii "TEMP_RANGE"
  | .fillTimeout => ascii "FILL_TIMEOUT"
  | .aborted => ascii "ABORTED"
  | .loadTimeout => ascii "LOAD_TIMEOUT"
  | .expansionRatio => ascii "EXPANSION_RATIO"
  | .elasticOverRee => ascii "ELASTIC_OVER_REE"
  | .noExpansion => ascii "NO_EXPANSION"
  | .negativePermanent => ascii "NEGATIVE_PERMANENT"
  | .permExceedsTotal => ascii "PERM_EXCEEDS_TOTAL"
  | .repeatInvalid => ascii "REPEAT_INVALID"
  | .handoffFailed => ascii "HANDOFF_FAILED"
  | .unloadTimeout => ascii "UNLOAD_TIMEOUT"
  | .orphan => ascii "ORPHAN"
  | .roleConflict => ascii "ROLE_CONFLICT"
  | .addressConflict => ascii "ADDRESS_CONFLICT"
  | .peerStale => ascii "PEER_STALE"
  | .profileMismatch => ascii "PROFILE_MISMATCH"
  | .offerStall => ascii "OFFER_STALL"
  | .findingCondemn => ascii "FINDING_CONDEMN"
  | .massLoss => ascii "MASS_LOSS"
  | .notEmpty => ascii "NOT_EMPTY"
  | .lotCondemn => ascii "LOT_CONDEMN"
  | .lotHold => ascii "LOT_HOLD"
  | .historyScrapped => ascii "HISTORY_SCRAPPED"
  | .badDate => ascii "BAD_DATE"
  | .unknownClass => ascii "UNKNOWN_CLASS"
  | .noHead => ascii "NO_HEAD"
  | .notDue => ascii "NOT_DUE"
  | .stray => ascii "STRAY"
  | .missing => ascii "MISSING"
  | .markFault => ascii "MARK_FAULT"
  | .markerSilent => ascii "MARKER_SILENT"
  | .punchFault => ascii "PUNCH_FAULT"
  | .noProfile => ascii "NO_PROFILE"
  | .profileCrc => ascii "PROFILE_CRC"
  | .profileRole => ascii "PROFILE_ROLE"
  | .roleStrap => ascii "ROLE_STRAP"
  | .profileFormat => ascii "PROFILE_FORMAT"

/-- The response of a condition is a TRIP (Table 9-1: codes 1 to 5); every other condition's is a VENT. -/
def Cause.isTrip (c : Cause) : Bool := 1 ≤ c.code && c.code ≤ 5

/-- The sticky conditions (R152). -/
def Cause.isSticky (c : Cause) : Bool := c == .overpressure || c == .pressureSwitch || c == .sensorRange

/-- The set of causes the repeat rule lists (R141). -/
def Cause.inRepeatSet (c : Cause) : Bool :=
  c == .leakDrop || c == .overband || c == .rampTimeout || c == .unsettled || c == .creep ||
  c == .noExpansion || c == .negativePermanent || c == .permExceedsTotal

/-- Intents (Table 1-6). `ret` is RETURN. -/
inductive Intent where
  | test | scrap | ret | hold | passThrough
deriving DecidableEq, Repr

/-- Intent codes (Table 1-6). -/
def Intent.code : Intent → Nat
  | .test => 0
  | .scrap => 1
  | .ret => 2
  | .hold => 3
  | .passThrough => 4

/-- The intent a code names (Table 1-6). -/
def Intent.ofCode : Nat → Option Intent
  | 0 => some .test
  | 1 => some .scrap
  | 2 => some .ret
  | 3 => some .hold
  | 4 => some .passThrough
  | _ => none

/-- Intent names (Table 1-6). -/
def Intent.name : Intent → Text
  | .test => ascii "TEST"
  | .scrap => ascii "SCRAP"
  | .ret => ascii "RETURN"
  | .hold => ascii "HOLD"
  | .passThrough => ascii "PASS_THROUGH"

/-- Verdicts (Table 1-6). -/
inductive Verdict where
  | pass | condemn | invalid | notTested
deriving DecidableEq, Repr

/-- Verdict codes (Table 1-6). -/
def Verdict.code : Verdict → Nat
  | .pass => 0
  | .condemn => 1
  | .invalid => 2
  | .notTested => 3

/-- The verdict of a two-bit code (Table 1-6). -/
def Verdict.ofCode : Nat → Verdict
  | 0 => .pass
  | 1 => .condemn
  | 2 => .invalid
  | _ => .notTested

/-- Verdict names (Table 1-6). -/
def Verdict.name : Verdict → Text
  | .pass => ascii "PASS"
  | .condemn => ascii "CONDEMN"
  | .invalid => ascii "INVALID"
  | .notTested => ascii "NOT_TESTED"

/-- Dispositions (Table 1-6). -/
inductive Disposition where
  | stamped | scrapped | returned | passed | held | missing
deriving DecidableEq, Repr

/-- Disposition codes (Table 1-6). -/
def Disposition.code : Disposition → Nat
  | .stamped => 0
  | .scrapped => 1
  | .returned => 2
  | .passed => 3
  | .held => 4
  | .missing => 5

/-- The disposition a code names (Table 1-6). -/
def Disposition.ofCode : Nat → Option Disposition
  | 0 => some .stamped
  | 1 => some .scrapped
  | 2 => some .returned
  | 3 => some .passed
  | 4 => some .held
  | 5 => some .missing
  | _ => none

/-- Disposition names (Table 1-6). -/
def Disposition.name : Disposition → Text
  | .stamped => ascii "STAMPED"
  | .scrapped => ascii "SCRAPPED"
  | .returned => ascii "RETURNED"
  | .passed => ascii "PASSED"
  | .held => ascii "HELD"
  | .missing => ascii "MISSING"

/-- Finding codes (Table 1-6). -/
inductive FindingCode where
  | dent | cut | genCorrosion | pitCorrosion | fire | arcBurn | bulge | neckCrack | thread | footring | guard
deriving DecidableEq, Repr

/-- Finding code numbers (Table 1-6). -/
def FindingCode.code : FindingCode → Nat
  | .dent => 1
  | .cut => 2
  | .genCorrosion => 3
  | .pitCorrosion => 4
  | .fire => 5
  | .arcBurn => 6
  | .bulge => 7
  | .neckCrack => 8
  | .thread => 9
  | .footring => 10
  | .guard => 11

/-- Every finding code. -/
def FindingCode.all : List FindingCode :=
  [.dent, .cut, .genCorrosion, .pitCorrosion, .fire, .arcBurn, .bulge, .neckCrack, .thread, .footring, .guard]

/-- The finding a number names (Table 1-6, R12). -/
def FindingCode.ofCode (n : Nat) : Option FindingCode := FindingCode.all.find? fun c => c.code == n

/-- Finding names as the terminal writes them (R63, Table 1-6). -/
def FindingCode.name : FindingCode → Text
  | .dent => ascii "DENT"
  | .cut => ascii "CUT"
  | .genCorrosion => ascii "GEN_CORROSION"
  | .pitCorrosion => ascii "PIT_CORROSION"
  | .fire => ascii "FIRE"
  | .arcBurn => ascii "ARC_BURN"
  | .bulge => ascii "BULGE"
  | .neckCrack => ascii "NECK_CRACK"
  | .thread => ascii "THREAD"
  | .footring => ascii "FOOTRING"
  | .guard => ascii "GUARD"

/-- The finding a name names (R63). -/
def FindingCode.ofName (t : Text) : Option FindingCode := FindingCode.all.find? fun c => c.name == t

/-- The findings stored CONDEMN whatever severity is entered (R63). -/
def FindingCode.alwaysCondemn (c : FindingCode) : Bool :=
  c == .fire || c == .arcBurn || c == .bulge || c == .neckCrack

/-- Severities (Table 1-6). -/
inductive Severity where
  | minor | condemn
deriving DecidableEq, Repr

/-- The states of a test head (Table 6-2). -/
inductive HeadState where
  | idle | loading | filling | zeroing | waitRamp | ramping | holding | venting | settling | draining
  | done | unloading | safe | outOfService
deriving DecidableEq, Repr

/-- Post codes of the head states (Table 2-6). -/
def HeadState.code : HeadState → Nat
  | .idle => 1
  | .loading => 2
  | .filling => 3
  | .zeroing => 4
  | .waitRamp => 5
  | .ramping => 6
  | .holding => 7
  | .venting => 8
  | .settling => 9
  | .draining => 10
  | .done => 11
  | .unloading => 12
  | .safe => 13
  | .outOfService => 14

/-- The states from LOADING to DRAINING (R106). SAFE is judged by how it was entered. -/
def HeadState.inTest (h : HeadState) : Bool := 2 ≤ h.code && h.code ≤ 10

/-- The states from FILLING to DRAINING (Table 9-1). -/
def HeadState.fillingToDraining (h : HeadState) : Bool := 3 ≤ h.code && h.code ≤ 10

/-- The states from ZEROING to SETTLING (Table 9-1). -/
def HeadState.zeroingToSettling (h : HeadState) : Bool := 4 ≤ h.code && h.code ≤ 9

/-- The states from LOADING to SETTLING (Table 9-1). -/
def HeadState.loadingToSettling (h : HeadState) : Bool := 2 ≤ h.code && h.code ≤ 9

/-- The intake states (Table 4-2), but for CONFLICT, which is read from the role conflict flag (R38). -/
inductive IntakeState where
  | purge | noPeriod | ready | inspecting | infeedFull | estop
deriving DecidableEq, Repr

/-- Post codes of the intake states (Table 4-2). -/
def IntakeState.code : IntakeState → Nat
  | .ready => 1
  | .inspecting => 2
  | .infeedFull => 3
  | .purge => 4
  | .noPeriod => 5
  | .estop => 6

/-- The states DISPOSE posts (R158, Table 2-6). -/
inductive DisposeState where
  | conflict | ready | calling | full | recordHold | halt | estop
deriving DecidableEq, Repr

/-- Post codes of the DISPOSE states (Table 2-6). -/
def DisposeState.code : DisposeState → Nat
  | .conflict => 0
  | .ready => 1
  | .calling => 2
  | .full => 3
  | .recordHold => 4
  | .halt => 5
  | .estop => 6

/-- Message kinds (Table 3-1). -/
inductive MsgKind where
  | docketReturn | releaseCall | docketDirect | docketOffer | verdictNote | stationCard
deriving DecidableEq, Repr

/-- Kind codes (Table 3-1). -/
def MsgKind.code : MsgKind → Nat
  | .docketReturn => 1
  | .releaseCall => 2
  | .docketDirect => 3
  | .docketOffer => 4
  | .verdictNote => 5
  | .stationCard => 6

/-- The kind a code names; 0 and 7 name none (Table 3-1, R40). -/
def MsgKind.ofCode : Nat → Option MsgKind
  | 1 => some .docketReturn
  | 2 => some .releaseCall
  | 3 => some .docketDirect
  | 4 => some .docketOffer
  | 5 => some .verdictNote
  | 6 => some .stationCard
  | _ => none

/-- The urgency cell of a kind: 0 for DOCKET_RETURN and RELEASE_CALL (R40). -/
def MsgKind.urgencyCell (k : MsgKind) : Nat := if k.code ≤ 2 then 0 else 1

/-- The directed kinds are 1 to 4 (Table 3-1). -/
def MsgKind.directed (k : MsgKind) : Bool := k.code ≤ 4

/-- The body lengths of a kind (Table 3-1). -/
def MsgKind.lengthOk (k : MsgKind) (n : Nat) : Bool :=
  match k with
  | .docketReturn => 26 ≤ n && n ≤ 60
  | .releaseCall => n == 0
  | .docketDirect => 23 ≤ n && n ≤ 60
  | .docketOffer => 26 ≤ n && n ≤ 60
  | .verdictNote => n == 5
  | .stationCard => n == 1 || n == 5

end Sys2Proof.Machine
end

