-- ==== Sys2Proof/Machine/Docket.lean ====
section
/-! DEFINITION. The records of the part: dockets with their five parts, station cards, queued messages, replies and
record lines (files 01, 03, 04, 10). -/

namespace Sys2Proof.Machine

/-- A month 1..12 and a year 2000..2099 (Table 1-3, R61). -/
structure Period where
  month : Nat
  year : Nat
deriving DecidableEq, Repr

/-- One finding; a returned docket carries findings without severities (R15, R16). -/
structure Finding where
  code : FindingCode
  severity : Option Severity
deriving DecidableEq, Repr

/-- The test part (Table 1-4). Optional fields are `none` when absent (R1). -/
structure TestPart where
  head : Addr
  noCylinder : Bool := false
  s0 : Option Nat := none
  st : Option Nat := none
  sp : Option Nat := none
  t0 : Option Nat := none
  tt : Option Nat := none
  tp : Option Nat := none
  peak : Nat := 0
  holdMean : Option Nat := none
  zeroStamp : Option Nat := none
  holdStart : Option Nat := none
  holdEnd : Option Nat := none
  et : Option Int := none
  ep : Option Int := none
  ee : Option Int := none
  ratio : Option Nat := none
  conditions : List Cause := []
  verdict : Verdict := .notTested
  cause : Option Cause := none
deriving DecidableEq, Repr

/-- The disposal part (R11). -/
structure DisposalPart where
  disposition : Disposition
  cause : Option Cause
deriving DecidableEq, Repr

/-- A docket: identity, specification and intake parts, and the two parts added on the way (R1). `tag`, `mass`,
`massLoss`, `period` and `intent` are absent until the event that writes them (R4, R6). `retest`, the retest_count, is
no optional field, and the spec gives it no value ahead of EVALUATE: 0 until then (R6, R59; DESIGN CHOICE, log 41). -/
structure Docket where
  tag : Option Nat := none
  mfr : Text
  serial : Text
  hash : BitVec 16
  cls : Nat
  testPressure : Nat
  waterCapacity : Nat
  tare : Nat
  ree : Option Nat
  ratioLimit : Option Nat := none
  holdTime : Option Nat := none
  lastMonth : Nat
  lastYear : Nat
  mfgYear : Nat
  period : Option Period := none
  mass : Option Nat := none
  massLoss : Option Nat := none
  findings : List Finding := []
  retest : Bool := false
  lotEntry : Option Nat := none
  intent : Option Intent := none
  reason : Option Cause := none
  test : Option TestPart := none
  disposal : Option DisposalPart := none
deriving DecidableEq, Repr

/-- The identity match (R2): mfr and serial equal character by character. -/
def Docket.sameIdentity (d : Docket) (mfr serial : Text) : Bool := d.mfr == mfr && d.serial == serial

/-- What a head's card adds (Table 2-7). -/
structure HeadCard where
  rating : Nat
  capacity : Nat
  k : Nat
deriving DecidableEq, Repr

/-- A station card (Table 2-7, Table 3-8); `head` is present for role TEST alone. -/
structure Card where
  role : Role
  cause : ResetCause
  clamped : Bool
  head : Option HeadCard
deriving DecidableEq, Repr

/-- The state of a peer view table entry (Table 2-7). -/
inductive View where
  | absent
  | unknown
  | intact (w : PostWord)
deriving DecidableEq, Repr

/-- A peer view table entry (Table 2-7). -/
structure PvtEntry where
  view : View := .absent
  lastIntact : BitVec 32 := 0
  card : Option Card := none
deriving DecidableEq, Repr

/-- A message of the transmit queue (section 3.5): its kind, destination and body as they were when it was queued, its
two counts (R47), and two marks: it contends in the present round (R39), and it is withdrawn at the end of its
sending (R48). -/
structure TxMsg where
  kind : MsgKind
  dest : Byte
  body : List Byte
  wait : Nat := 0
  attempts : Nat := 0
  contending : Bool := false
  withdraw : Bool := false
deriving DecidableEq, Repr

/-- The lines port B of the INSPECT station sends (R58 to R66, R71). -/
inductive Reply where
  | ok
  | okId (mfr serial : Text)
  | okMass (n : Nat)
  | okJoin (tag : Nat) (intent : Intent) (reason : Option Cause)
  | idRejected (n : Nat)
  | busy
  | full
  | errSyntax
  | errState
  | errRange
  | errCode
  | errNoMass
  | errNoFault
  | errCancelled
deriving DecidableEq, Repr

/-- The content of a record line, as taken at its production (R176, R177). -/
inductive RecLine where
  | docket (d : Docket)
  | stray (mfr serial : Text)
  | card (addr : Addr) (c : Card)
deriving DecidableEq, Repr

/-- What a record line's entry into the buffer finishes (R176, R178): the docket in work, a MISSING docket of the
arrival queue (by its identity), or nothing (a stray, or a card of an address). -/
inductive LineSource where
  | work
  | queued (mfr serial : Text)
  | stray
  | card (addr : Addr)
deriving DecidableEq, Repr

/-- A record line that found the buffer full (R176). -/
structure Waiter where
  line : RecLine
  source : LineSource
deriving DecidableEq, Repr

end Sys2Proof.Machine
end

