-- ==== Sys2Proof/Machine/State.lean ====
section
/-! DEFINITION. The state of one station, block by block, and its reset. -/

namespace Sys2Proof.Machine

/-- The phases of the profile loader (Table 11-1). -/
inductive LoaderPhase where
  | reset | reading | running | startupFault
deriving DecidableEq, Repr

/-- The straps as sampled (R181). -/
structure Straps where
  addr : Addr := 0
  role : BitVec 2 := 0
  cellHigh : Bool := false
deriving DecidableEq, Repr

/-- The profile loader (Table 11-1). `clamped` is the profile status CLAMPED. -/
structure Loader where
  phase : LoaderPhase := .reset
  straps : Straps := {}
  cause : ResetCause := .powerOn
  clamped : Bool := false
  fault : Option Cause := none
  readCount : Nat := 0
deriving DecidableEq, Repr

/-- A timer whose length the spec gives in milliseconds or seconds and not in ticks (log 4). -/
inductive Timer where
  | stopped | running | expired
deriving DecidableEq, Repr

/-- A counter of sample ticks. `fresh` says that it was set to 0 at a tick whose sample is still to come, so that
tick does not advance it (R91, R147; log 3). -/
structure TickCounter where
  ticks : Nat := 0
  fresh : Bool := false
deriving DecidableEq, Repr

/-- The line interface states (Table 2-2). -/
inductive LifState where
  | off | idleWait | callWait | inRound | addressConflict
deriving DecidableEq, Repr

/-- The line modes (R21). -/
inductive LineMode where
  | quiet | paced
deriving DecidableEq, Repr

/-- Where a round in progress stands for the station: before its message window; the key has been read; the own
directed frame is sent and its accept field is due; nothing more of the window is read or written. -/
inductive RoundStage where
  | posts | window | accept | over
deriving DecidableEq, Repr

/-- The round in progress. `posted` is the word written and read back (R20), `closeZero` the station's own write of
cell 263 (R21), `keySent` and `key` the key written and read (R39), `won` that the window is the station's,
`frameSent` the frame it sends (R41), `acceptDriven` the accept field it writes (R44), `cardFrom` the address whose
card was written in this round (R53), `cardBefore` the card that its entry held before: what the readers of the table
go on seeing until the round's update (R34). -/
structure Round where
  stage : RoundStage := .posts
  posted : Option PostWord := none
  closeZero : Option Bool := none
  keySent : Option Key := none
  key : Option Key := none
  won : Bool := false
  frameSent : Option Frame := none
  acceptDriven : Option Byte := none
  cardFrom : Option Addr := none
  cardBefore : Option Card := none
deriving DecidableEq, Repr

/-- The line interface (file 02, file 03). `joined` says that a first complete round has been seen (R35, R36). -/
structure Lif where
  state : LifState := .off
  idleCount : Nat := 0
  mode : LineMode := .quiet
  pacing : Timer := .stopped
  keepAlive : Timer := .stopped
  silence : Timer := .stopped
  lineSilent : Bool := false
  roundCounter : BitVec 32 := 0
  joined : Bool := false
  round : Round := {}
  rxBuffer : Option Frame := none
  roleConflict : Bool := false
  staleAddr : Option Addr := none
deriving DecidableEq, Repr

/-- A line as a serial port holds it (R57): the characters kept, and for a bad line how many of them stand before the
fault. -/
structure LineBuffer where
  chars : Text := []
  badAt : Option Nat := none
deriving DecidableEq, Repr

/-- The serial ports: the line each port holds (R57, R166), the lines waiting on port B at INSPECT (R60), the text of
the last line sent on TRM_TX and on REC_TX (log 27), and REC_CTS as the port last read it (R176). -/
structure Ports where
  lineA : LineBuffer := {}
  lineB : LineBuffer := {}
  waiting : List Reply := []
  trmSent : Option Text := none
  recSent : Option Text := none
  recCts : Bool := false
deriving DecidableEq, Repr

/-- The test sequencer (R90) and the head's docket slot (R13). `safeFrom` is the state of a test that SAFE was entered
from (R143). `tickOpen` says that an event of the tick in progress was taken ahead of its sample, `peakOwed` that
this sample counts toward peak_pressure only (R97, R135, R136; log 3, log 10). Between reset and release the phase timer
is stopped, with no count: R90 gives it no value there (DESIGN CHOICE, log 5). -/
structure Tsq where
  state : Option HeadState := none
  phase : Option TickCounter := none
  caller : Option Addr := none
  gateFlag : Bool := false
  gateOpen : Bool := false
  returnState : Option HeadState := none
  safeFrom : Option HeadState := none
  oosCause : Option Cause := none
  idleAge : Nat := 0
  doneAge : Nat := 0
  doneUrgent : Bool := false
  lidLock : Bool := false
  docket : Option Docket := none
  tickOpen : Bool := false
  peakOwed : Bool := false
deriving DecidableEq, Repr

/-- The pressure limits (R134). -/
structure Limits where
  top : Nat
  cond : Nat
  low : Nat
deriving DecidableEq, Repr

/-- The window state (Table 8-3). `shut` says that no further window starts in the phase (R131, R132). -/
structure Window where
  skip : Nat := 0
  count : Nat := 0
  reference : Nat := 0
  crossings : Nat := 0
  levelSum : Nat := 0
  tempSum : Int := 0
  failures : Nat := 0
  shut : Bool := false
deriving DecidableEq, Repr

/-- The measurement unit (R142). -/
structure Msu where
  levelRail : Bool := false
  pressRail : Bool := false
  tempRail : Bool := false
  pressure : Option Nat := none
  limits : Option Limits := none
  window : Window := {}
  holdSum : Nat := 0
  holdCount : Nat := 0
  holdExpired : Bool := false
deriving DecidableEq, Repr

/-- The admission logic (Table 7-1). -/
structure Adm where
  waitAge : Nat := 0
  urgent : Bool := false
  kEff : Nat := 1
  mismatch : Option Addr := none
deriving DecidableEq, Repr

/-- The interlock unit (Table 9-3, R156). `latched` and `marks` are sets; `disarmed` is the set of conditions that are
not armed. The conditions PRESSURE_SWITCH and ABORTED are armed while their inputs are (R145). `expired` is the condition
of a timer expiry taken ahead of the sample of the tick in progress, whose cause is present until that tick closes
(R145; log 3). Between reset and release, where the spec gives no armed flags, every condition is armed and the three edge
inputs are not (R88, R144; DESIGN CHOICE, log 5). `timer` counts while a response is in force and keeps its last count after (log 40). -/
structure Ilk where
  latched : List Cause := []
  disarmed : List Cause := []
  inForce : Option Cause := none
  timer : TickCounter := {}
  marks : List Cause := []
  pswArmed : Bool := false
  abortArmed : Bool := false
  clearArmed : Bool := false
  stopFlag : Bool := false
  expired : Option Cause := none
deriving DecidableEq, Repr

/-- The pulses of the INSPECT station (Table 4-1, R72). -/
inductive Pulse where
  | stageIn | stageBy | infeedRelease | infeedDivert | bypassRelease
deriving DecidableEq, Repr

/-- A movement channel (R72). -/
inductive Channel where
  | idle
  | pulsing (p : Pulse)
  | owed (p : Pulse)
deriving DecidableEq, Repr

/-- The intake evaluation unit with its three places of the docket store (file 04, R13, R76). -/
structure Ieu where
  state : IntakeState := .purge
  left : IntakeState := .purge
  period : Option Period := none
  tagCounter : Nat := 1
  work : Option Docket := none
  closePending : Bool := false
  infeed : List Docket := []
  direct : List Docket := []
  directFault : Bool := false
  stall : Nat := 0
  stage : Channel := .idle
  infeedCh : Channel := .idle
  bypass : Channel := .idle
  route : Addr := 0
deriving DecidableEq, Repr

/-- One way of the serial history (Table 5-3). -/
structure Way where
  valid : Bool := false
  hash : BitVec 16 := 0
  disposition : Disposition := .held
  invalidCount : Nat := 0
  stamp : BitVec 32 := 0
deriving DecidableEq, Repr

/-- One set of the serial history (R80); `lru1` says that the LRU bit names way 1. -/
structure HistSet where
  way0 : Way := {}
  way1 : Way := {}
  lru1 : Bool := false
deriving DecidableEq, Repr

/-- A queued docket with its arrival timer in ticks and its MISSING mark (R162). -/
structure Arrival where
  docket : Docket
  ticks : Nat := 0
  missing : Bool := false
deriving DecidableEq, Repr

/-- The outstanding release call (R165). -/
structure Call where
  head : Addr
  returnPhase : Bool := false
  timer : Timer := .running
deriving DecidableEq, Repr

/-- The next exchange of the marking sequence (R171); `load i` loads character `i`. -/
inductive MarkStep where
  | clear
  | load (i : Nat)
  | query
  | strike
  | poll
deriving DecidableEq, Repr

/-- The action phase of the cylinder in work (Table 10-2), with two more that the rules imply: a punch that waits for
its retry after PUNCH_FAULT (R173), and a cylinder that has left while its docket's line waits (R168). -/
inductive ActionPhase where
  | marking (step : MarkStep)
  | punching
  | punchRetry
  | punchOwed
  | lane
  | laneOwed
  | gone
deriving DecidableEq, Repr

/-- What stands in the DISPOSE work slot: a docket, a cylinder whose docket has been discarded (R178), or a stray. -/
inductive WorkItem where
  | docket (d : Docket)
  | finished
  | stray (mfr serial : Text)
deriving DecidableEq, Repr

/-- The DISPOSE work slot when not empty (Table 10-2). -/
structure Work where
  item : WorkItem
  phase : ActionPhase
deriving DecidableEq, Repr

/-- The disposal unit (Table 10-2, R158) and the marking-head link (R169, R171). -/
structure Dsu where
  arrival : List Arrival := []
  call : Option Call := none
  work : Option Work := none
  halt : Option Cause := none
  stopCopy : Bool := false
  recBuffer : List RecLine := []
  recWaiters : List Waiter := []
  linkReg : BitVec 24 := 0
  linkSent : Option (BitVec 24) := none
  linkSeq : Nat := 0
  baseCount : Byte := 0
  strike : Timer := .stopped
  punchTimer : Timer := .stopped
  punchPulse : Bool := false
  lane : BitVec 2 := 0
  clearArmed : Bool := false
deriving DecidableEq, Repr

/-- A sending of the LAMP output: the code, and the address that follows PEER_STALE and PROFILE_MISMATCH (R185). -/
structure LampWord where
  code : Nat
  addr : Option Addr
deriving DecidableEq, Repr

/-- The station. `lamp` is the last sending of LAMP, none before the first: the spec gives the output no value at reset
(log 27). `pvt` has sixteen entries and `history` sixteen sets, by address and by set number. `freeCount` is the
model's own counter for its free value (log 7); `pending` is the queue of commands. -/
structure State where
  loader : Loader := {}
  params : Params := {}
  lif : Lif := {}
  txq : List TxMsg := []
  pvt : List PvtEntry := List.replicate 16 ({} : PvtEntry)
  inputs : Pins := {}
  ports : Ports := {}
  tsq : Tsq := {}
  msu : Msu := {}
  adm : Adm := {}
  ilk : Ilk := {}
  ieu : Ieu := {}
  history : List HistSet := List.replicate 16 ({} : HistSet)
  dsu : Dsu := {}
  lamp : Option LampWord := none
  freeCount : Nat := 0
  pending : List Instr := []
deriving DecidableEq, Repr

/-- Why a step stops: never. The spec gives every command an effect in every state, so no constructor stands here. -/
inductive Fault
deriving DecidableEq, Repr

/-- Why a command has no meaning. -/
inductive Refusal where
  /-- Raised by an arm of `exec` alone, for a command that has no meaning yet; no arm raises it. Safe: a run stops. -/
  | notModelled (mnemonic : String)
deriving DecidableEq, Repr

/-- The outcome of a command. -/
abbrev Out := Host.Outcome State Fault Refusal

/-- The machine right after a POWER_ON reset has begun: the loader phase is RESET, every block holds its reset values
(R18, R31, R46, R57, R76, R81, R90, R113, R142, R144, R158, R180) and no command waits. Values the spec does not give
stand in log 5. -/
def State.reset : State := {}

/-- The state with another loader block; so for the blocks that follow. -/
def State.withLoader (s : State) (x : Loader) : State := { s with loader := x }
def State.withParams (s : State) (x : Params) : State := { s with params := x }
def State.withLif (s : State) (x : Lif) : State := { s with lif := x }
def State.withTxq (s : State) (x : List TxMsg) : State := { s with txq := x }
def State.withPvt (s : State) (x : List PvtEntry) : State := { s with pvt := x }
def State.withInputs (s : State) (x : Pins) : State := { s with inputs := x }
def State.withPorts (s : State) (x : Ports) : State := { s with ports := x }
def State.withTsq (s : State) (x : Tsq) : State := { s with tsq := x }
def State.withMsu (s : State) (x : Msu) : State := { s with msu := x }
def State.withAdm (s : State) (x : Adm) : State := { s with adm := x }
def State.withIlk (s : State) (x : Ilk) : State := { s with ilk := x }
def State.withIeu (s : State) (x : Ieu) : State := { s with ieu := x }
def State.withHistory (s : State) (x : List HistSet) : State := { s with history := x }
def State.withDsu (s : State) (x : Dsu) : State := { s with dsu := x }
def State.withLamp (s : State) (x : Option LampWord) : State := { s with lamp := x }
def State.withFreeCount (s : State) (x : Nat) : State := { s with freeCount := x }
def State.withPending (s : State) (x : List Instr) : State := { s with pending := x }

end Sys2Proof.Machine
end

