-- ==== Sys2Proof/Machine/Bits.lean ====
section
/-! DEFINITION. Bits and numbers: the two checks of the line (R3, R27), byte order, rounding and text. -/

namespace Sys2Proof.Machine

/-- The bits of a word, most significant first: the order in which every cell goes out (R3, R20, R41). -/
def bitsOf {n : Nat} (x : BitVec n) : List Bool := (List.range n).map x.getMsbD

/-- One step of the CRC-16: generator x^16+x^12+x^5+1 (R3). -/
def crc16Step (r : BitVec 16) (b : Bool) : BitVec 16 :=
  if r.getMsbD 0 != b then (r <<< 1) ^^^ 0x1021 else r <<< 1

/-- The CRC-16 of a bit stream: all ones at the start, no final inversion (R3). -/
def crc16 (bits : List Bool) : BitVec 16 := bits.foldl crc16Step 0xFFFF

/-- The CRC-16 of bytes, each most significant bit first (R3). -/
def crc16Bytes (bytes : List Byte) : BitVec 16 := crc16 (bytes.flatMap bitsOf)

/-- The identity hash of a cylinder (R3). -/
def identityHash (mfr serial : Text) : BitVec 16 := crc16Bytes (mfr ++ serial)

/-- One step of the CRC-3 of a post: generator x^3+x+1 (R27). -/
def crc3Step (r : BitVec 3) (b : Bool) : BitVec 3 :=
  if r.getMsbD 0 != b then (r <<< 1) ^^^ 0b011 else r <<< 1

/-- The check of a post over its bits 15 to 3 (R27). -/
def crc3 (x : BitVec 13) : BitVec 3 := (bitsOf x).foldl crc3Step 0

/-- The number that bytes spell, most significant byte first. -/
def beNat (bytes : List Byte) : Nat := bytes.foldl (fun v b => v * 256 + b.toNat) 0

/-- The `n` low bytes of a number, most significant byte first. -/
def beBytes : Nat → Nat → List Byte
  | 0, _ => []
  | n + 1, v => beBytes n (v / 256) ++ [BitVec.ofNat 8 v]

/-- A quotient rounded to the nearest integer, a tie away from zero, for a dividend of at least 0 (R128). -/
def roundDivNat (a b : Nat) : Nat := (2 * a + b) / (2 * b)

/-- A signed quotient rounded to the nearest integer, a tie away from zero (R128). -/
def roundDiv (a : Int) (b : Nat) : Int :=
  if 0 ≤ a then Int.ofNat (roundDivNat a.natAbs b) else -Int.ofNat (roundDivNat a.natAbs b)

/-- The digits 0 to 9. -/
def isDigit (c : Byte) : Bool := 0x30 ≤ c.toNat && c.toNat ≤ 0x39

/-- The letters A to Z. -/
def isUpper (c : Byte) : Bool := 0x41 ≤ c.toNat && c.toNat ≤ 0x5A

/-- The characters of mfr and of the plant mark (Table 1-1, Table 10-2). -/
def isMfrChar (c : Byte) : Bool := isUpper c || isDigit c

/-- The characters of a serial (Table 1-1). -/
def isSerialChar (c : Byte) : Bool := isMfrChar c || c == 0x2D

/-- The value of a run of decimal digits. -/
def decValue (t : Text) : Nat := t.foldl (fun v c => v * 10 + (c.toNat - 0x30)) 0

/-- The decimal digits of a number below 10 ^ `fuel`, least significant first, at least one. -/
def digitsRev : Nat → Nat → Text
  | 0, _ => []
  | fuel + 1, n =>
    BitVec.ofNat 8 (0x30 + n % 10) :: (if n < 10 then [] else digitsRev fuel (n / 10))

/-- A number in decimal (R176); twelve digits hold every number of a line. -/
def decText (n : Nat) : Text := (digitsRev 12 n).reverse

/-- A number in decimal with a sign when negative (R176). -/
def decTextInt (n : Int) : Text := if n < 0 then 0x2D :: decText n.natAbs else decText n.natAbs

/-- A number in two decimal digits. -/
def decText2 (n : Nat) : Text := [BitVec.ofNat 8 (0x30 + n / 10 % 10), BitVec.ofNat 8 (0x30 + n % 10)]

/-- Texts with a separator between each two. -/
def joinWith (sep : Byte) : List Text → Text
  | [] => []
  | [t] => t
  | t :: rest => t ++ sep :: joinWith sep rest

/-- A text cut at every separator. -/
def splitAtSep (sep : Byte) : Text → List Text
  | [] => [[]]
  | c :: rest =>
    match splitAtSep sep rest with
    | [] => [[]]
    | t :: more => if c == sep then [] :: t :: more else (c :: t) :: more

end Sys2Proof.Machine
end

