-- ==== Sys2Proof/Machine/Operands.lean ====
section
/-! DEFINITION. What comes in and goes out: serial lines, frames, accept fields, cards and notes (files 03, 04, 10). -/

namespace Sys2Proof.Machine

/-- A character that marks a line bad: a framing error, a control character, or one above 0x7E (R57). -/
def portCharBad (c : PortChar) : Bool := c.framingError || c.code.toNat < 0x20 || 0x7E < c.code.toNat

/-- A carriage return just before the line feed is dropped (file 04, section 4.3). -/
def dropReturn (cs : List PortChar) : List PortChar :=
  match cs.getLast? with
  | some c => if c.code == 0x0D && !c.framingError then cs.dropLast else cs
  | none => cs

/-- The line a port of `cap` characters hands over: the characters kept, and how many stand before its first fault,
which is a bad character or the first that does not fit (R57). -/
def assembleLine (cap : Nat) (l : PortLine) : LineBuffer :=
  let cs := dropReturn l.chars
  let fault := cs.findIdx portCharBad
  let badAt := if cap < cs.length then some (min fault cap) else if fault < cs.length then some fault else none
  { chars := (cs.map PortChar.code).take cap, badAt := badAt }

/-- A line that reaches its unit: not empty, and received whole after the release (R57). -/
def lineHanded (l : PortLine) : Bool := !l.partBeforeRelease && !(dropReturn l.chars).isEmpty

/-- Field 1 of Table 4-3. -/
def mfrForm (t : Text) : Bool := t.length == 3 && t.all isMfrChar

/-- Field 2 of Table 4-3. -/
def serialForm (t : Text) : Bool := 1 ≤ t.length && t.length ≤ 12 && t.all isSerialChar

/-- A numeric field of 1 to 7 decimal digits (Table 4-3, R62). -/
def numberForm (t : Text) : Bool := 1 ≤ t.length && t.length ≤ 7 && t.all isDigit

/-- A numeric field in its range (Table 4-3). -/
def numberIn (lo hi : Nat) (t : Text) : Bool := numberForm t && lo ≤ decValue t && decValue t ≤ hi

/-- A field of exactly two digits. -/
def twoDigits (t : Text) : Bool := t.length == 2 && t.all isDigit

/-- Field 7 of Table 4-3: MM/YY with a month 01..12. -/
def monthYearForm (t : Text) : Bool :=
  t.length == 5 && twoDigits (t.take 2) && t.getD 2 0 == 0x2F && twoDigits (t.drop 3) &&
  1 ≤ decValue (t.take 2) && decValue (t.take 2) ≤ 12

/-- The form and range of reader field `n` (Table 4-3); there is no tenth field. -/
def readerFieldOk (n : Nat) (t : Text) : Bool :=
  match n with
  | 1 => mfrForm t
  | 2 => serialForm t
  | 3 => numberIn 1 8 t
  | 4 => numberIn 500 45000 t
  | 5 => numberIn 5 1500 t
  | 6 => numberIn 50 20000 t
  | 7 => monthYearForm t
  | 8 => twoDigits t
  | 9 => numberIn 1 1000000 t
  | _ => false

/-- The fields of a reader line, up to the fault of a bad one. A fault that falls on a separator counts in the field
before it: the spec does not say which field it falls in (DESIGN CHOICE, log 19). -/
def readerFields (b : LineBuffer) : List Text :=
  splitAtSep 0x3B (match b.badAt with | some k => b.chars.take k | none => b.chars)

/-- The number of the first field of an intake reader line that breaks, if one does (R58). The field in which a bad
line's fault fell breaks; a field past the eighth that the line does not have does not. -/
def readerFault (b : LineBuffer) : Option Nat :=
  let fs := readerFields b
  [1, 2, 3, 4, 5, 6, 7, 8, 9, 10].find? fun n =>
    (b.badAt.isSome && n == fs.length) ||
    (if n ≤ 8 then !readerFieldOk n (fs.getD (n - 1) []) else n ≤ fs.length && !readerFieldOk n (fs.getD (n - 1) []))

/-- The docket that a good reader line creates (R59): identity part, the reader's fields of the specification part,
and an intake part with no mass and no findings; its retest_count is 0 until EVALUATE (log 41). -/
def readerDocket (b : LineBuffer) : Docket :=
  let fs := readerFields b
  let f := fun n => fs.getD (n - 1) []
  { mfr := f 1, serial := f 2, hash := identityHash (f 1) (f 2), cls := decValue (f 3), testPressure := decValue (f 4),
    waterCapacity := decValue (f 5), tare := decValue (f 6),
    ree := if fs.length == 9 then some (decValue (f 9)) else none,
    lastMonth := decValue ((f 7).take 2), lastYear := decValue ((f 7).drop 3), mfgYear := decValue (f 8) }

/-- The identity of a well-formed marking reader line: two fields, MFR and SERIAL (R166). -/
def markIdentity (b : LineBuffer) : Option (Text × Text) :=
  match b.badAt, readerFields b with
  | none, [m, n] => if mfrForm m && serialForm n then some (m, n) else none
  | _, _ => none

/-- The arguments of a terminal entry, each separated from the last by one space (R60). Two spaces in a row have an empty
argument between them, which counts as an argument: the spec does not say (DESIGN CHOICE, log 35). -/
def entryArgs (b : LineBuffer) : List Text := (splitAtSep 0x20 b.chars).drop 1

/-- The argument of PERIOD: two digits, '/', four digits (R61). -/
def periodForm (t : Text) : Bool :=
  t.length == 7 && twoDigits (t.take 2) && t.getD 2 0 == 0x2F && (t.drop 3).all isDigit

/-- The period an argument of that form names. -/
def periodOf (t : Text) : Period := { month := decValue (t.take 2), year := decValue (t.drop 3) }

/-- Month 1..12 and year 2000..2099 (R61). -/
def Period.inRange (p : Period) : Bool := 1 ≤ p.month && p.month ≤ 12 && 2000 ≤ p.year && p.year ≤ 2099

/-- The severity a FIND argument names (R63). -/
def severityOf (t : Text) : Option Severity :=
  if t == ascii "MINOR" then some .minor else if t == ascii "CONDEMN" then some .condemn else none

/-- The contention key of a message: urgency, kind, 15 minus the wait count, sender's address (R40). -/
def msgKey (a : Addr) (m : TxMsg) : Key :=
  BitVec.ofNat 1 m.kind.urgencyCell ++ BitVec.ofNat 3 m.kind.code ++ BitVec.ofNat 4 (15 - m.wait) ++ a

/-- The sender's address in a key (R40). -/
def keyAddr (k : Key) : Addr := k.extractLsb' 0 4

/-- The kind in a key whose urgency cell is the kind's; else none, and the message is ignored (R40). -/
def keyKind (k : Key) : Option MsgKind :=
  match MsgKind.ofCode (k.extractLsb' 8 3).toNat with
  | some kind => if (k.extractLsb' 11 1).toNat == kind.urgencyCell then some kind else none
  | none => none

/-- The CRC-16 of a frame: key, destination, length and body (R42). -/
def frameCrc (key : Key) (dest len : Byte) (body : List Byte) : BitVec 16 :=
  crc16 (bitsOf key ++ bitsOf dest ++ bitsOf len ++ body.flatMap bitsOf)

/-- A frame as its sender sends it: the message as it was queued, with the CRC over the cells written (R41, R42). -/
def frameOf (key : Key) (m : TxMsg) : Frame :=
  let len := BitVec.ofNat 8 m.body.length
  { key := key, dest := m.dest, len := len, body := m.body, crc := frameCrc key m.dest len m.body }

/-- The bytes of a frame from cell 278 to its last CRC cell (Table 3-2). -/
def frameBytes (f : Frame) : List Byte :=
  [f.dest, f.len] ++ f.body ++ [f.crc.extractLsb' 8 8, f.crc.extractLsb' 0 8]

/-- Some cell reads 0 where the sender wrote 1 (R41). -/
def overruled (sent read : List Byte) : Bool := (sent.zip read).any fun p => p.1 &&& ~~~p.2 != 0

/-- The accept field of a station: its address, then the complement (R44). -/
def acceptField (a : Addr) : Byte := a ++ ~~~a

/-- The address a valid accept pair names (R45). -/
def acceptPair (b : Byte) : Option Addr :=
  let a : Addr := b.extractLsb' 4 4
  if b.extractLsb' 0 4 == ~~~a then some a else none

/-- Every check on a frame of kind `k` before its body: the key's kind and urgency, the length, the CRC (R40, R42),
and the length range of the kind (R43). -/
def frameChecks (k : MsgKind) (f : Frame) : Bool :=
  keyKind f.key == some k && f.len.toNat ≤ 60 && f.body.length == f.len.toNat &&
  frameCrc f.key f.dest f.len f.body == f.crc && k.lengthOk f.len.toNat

/-- The body of a STATION_CARD (Table 3-8). -/
def cardBody (c : Card) : List Byte :=
  let k := match c.head with | some h => h.k - 1 | none => 0
  let b0 : Byte := c.role.code ++ BitVec.ofBool (c.cause == .pin) ++ BitVec.ofBool c.clamped ++ BitVec.ofNat 2 k ++ 0#2
  match c.head with
  | some h => b0 :: (beBytes 2 h.rating ++ beBytes 2 h.capacity)
  | none => [b0]

/-- The card a body carries, if it passes the checks of R53. -/
def parseCard (body : List Byte) : Option Card :=
  match body with
  | [] => none
  | b0 :: rest =>
    let cause := if b0.getLsbD 5 then ResetCause.pin else .powerOn
    let k := (b0.extractLsb' 2 2).toNat
    let rating := beNat (rest.take 2)
    let capacity := beNat (rest.drop 2)
    if b0.extractLsb' 0 2 != 0 then none else
    match Role.ofCode (b0.extractLsb' 6 2) with
    | none => none
    | some .test =>
      if rest.length == 4 && 500 ≤ rating && rating ≤ 45000 && 5 ≤ capacity && capacity ≤ 1500 then
        some { role := .test, cause := cause, clamped := b0.getLsbD 4,
               head := some { rating := rating, capacity := capacity, k := k + 1 } }
      else none
    | some r =>
      if rest.isEmpty && k == 0 then some { role := r, cause := cause, clamped := b0.getLsbD 4, head := none }
      else none

/-- A verdict note (Table 3-9). -/
structure Note where
  hash : BitVec 16
  disposition : Disposition
  invalid : Bool
  tag : Nat
deriving DecidableEq, Repr

/-- The body of a VERDICT_NOTE (Table 3-9). -/
def noteBody (n : Note) : List Byte :=
  let b : Byte := BitVec.ofNat 3 n.disposition.code ++ BitVec.ofBool n.invalid ++ 0#4
  beBytes 2 n.hash.toNat ++ b :: beBytes 2 n.tag

/-- The note a body carries, if it passes the checks of R54. -/
def parseNote (body : List Byte) : Option Note :=
  match body with
  | [h1, h0, b, t1, t0] =>
    match Disposition.ofCode (b.extractLsb' 5 3).toNat with
    | none => none
    | some d =>
      let invalid := b.getLsbD 4
      let tag := beNat [t1, t0]
      if b.extractLsb' 0 4 != 0 || (invalid && d != .returned) || tag == 0 then none
      else some { hash := BitVec.ofNat 16 (beNat [h1, h0]), disposition := d, invalid := invalid, tag := tag }
  | _ => none

end Sys2Proof.Machine
end

