-- ==== Sys2Proof/Machine/Wire.lean ====
section
/-! DEFINITION. The docket wire form (Table 1-8, R15) and the form check with the rebuilding of a docket (R16). -/

namespace Sys2Proof.Machine

/-- The 6-bit code of an identity character: digits, letters, '-' (Table 1-8). -/
def charCode (c : Byte) : Nat :=
  if isDigit c then c.toNat - 0x30 else if isUpper c then c.toNat - 0x41 + 10 else 36

/-- The character of a 6-bit code. -/
def codeChar (n : Nat) : Byte :=
  if n < 10 then BitVec.ofNat 8 (0x30 + n) else if n < 36 then BitVec.ofNat 8 (0x41 + (n - 10)) else 0x2D

/-- Bytes that `n` 6-bit codes fill. -/
def packedLength (n : Nat) : Nat := (n * 6 + 7) / 8

/-- Identity characters as 6-bit codes, packed, with 0 pad bits (Table 1-8, order 5). -/
def packChars (t : Text) : List Byte :=
  let v := t.foldl (fun v c => v * 64 + charCode c) 0
  beBytes (packedLength t.length) (v * 2 ^ (8 * packedLength t.length - 6 * t.length))

/-- The `n` low 6-bit codes of a number, first character most significant. -/
def unpackCodes : Nat → Nat → List Nat
  | 0, _ => []
  | n + 1, v => unpackCodes n (v / 64) ++ [v % 64]

/-- A finding byte of an offer or a direct docket: code, severity (Table 1-8, order 18). -/
def findingByte (f : Finding) : Byte :=
  BitVec.ofNat 8 (f.code.code * 16 + (if f.severity == some .condemn then 8 else 0))

/-- Findings of a return: two codes a byte (Table 1-8, order 18). -/
def packFindings : List Finding → List Byte
  | [] => []
  | [a] => [BitVec.ofNat 8 (a.code.code * 16)]
  | a :: b :: rest => BitVec.ofNat 8 (a.code.code * 16 + b.code.code) :: packFindings rest

/-- A bit of a byte when a condition holds. -/
def bitIf (b : Bool) (w : Nat) : Nat := if b then w else 0

/-- The arithmetic stage: 0 not run, 1 E_t, 2 E_t and E_p, 3 run to its end (Table 1-8). -/
def TestPart.stage (t : TestPart) : Nat :=
  if t.ratio.isSome then 3 else if t.ep.isSome then 2 else if t.et.isSome then 1 else 0

/-- A 24-bit two's complement number (Table 1-8, orders 29 and 30). -/
def signed24 (n : Int) : List Byte := beBytes 3 (BitVec.ofInt 24 n).toNat

/-- An optional 16-bit field. -/
def optional16 (o : Option Nat) : List Byte := match o with | some v => beBytes 2 v | none => []

/-- The test part on the wire (Table 1-8, orders 21 to 31). -/
def testBytes (t : TestPart) : List Byte :=
  [BitVec.ofNat 8 (t.head.toNat * 16 + bitIf t.noCylinder 8 + t.verdict.code * 2 + bitIf t.cause.isSome 1),
   BitVec.ofNat 8 (t.conditions.length * 64 + (match t.cause with | some c => c.code | none => 0)),
   BitVec.ofNat 8 (bitIf t.zeroStamp.isSome 128 + bitIf t.holdStart.isSome 64 + bitIf t.holdEnd.isSome 32 +
     t.stage * 8)] ++
  beBytes 2 t.peak ++ optional16 t.zeroStamp ++ optional16 t.holdStart ++
  (match t.holdEnd with | some v => beBytes 2 v ++ beBytes 2 (t.holdMean.getD 0) | none => []) ++
  (if 1 ≤ t.stage then signed24 (t.et.getD 0) else []) ++
  (if 2 ≤ t.stage then signed24 (t.ep.getD 0) else []) ++
  t.conditions.map fun c => BitVec.ofNat 8 c.code

/-- The body of a docket message (R15, Table 1-8). A DOCKET_RETURN reduces findings to their codes. -/
def docketBody (k : MsgKind) (d : Docket) : List Byte :=
  let per := d.period.getD { month := 1, year := 2000 }
  [BitVec.ofNat 8 (bitIf d.ree.isSome 128 + bitIf d.lotEntry.isSome 64 + bitIf d.reason.isSome 32 +
     bitIf d.test.isSome 16 + bitIf d.retest 8 + d.findings.length)] ++
  beBytes 2 (d.tag.getD 0) ++
  [BitVec.ofNat 8 ((d.cls - 1) * 32 + (d.intent.getD .test).code * 4 + bitIf d.ratioLimit.isSome 2),
   BitVec.ofNat 8 d.serial.length] ++
  packChars (d.mfr ++ d.serial) ++
  [BitVec.ofNat 8 (d.lastMonth * 16 + per.month), BitVec.ofNat 8 d.lastYear, BitVec.ofNat 8 d.mfgYear,
   BitVec.ofNat 8 (per.year - 2000)] ++
  beBytes 2 d.testPressure ++ beBytes 2 d.waterCapacity ++ beBytes 2 d.tare ++
  (match d.ratioLimit with | some r => beBytes 2 r ++ beBytes 2 (d.holdTime.getD 0) | none => []) ++
  beBytes 2 (d.mass.getD 0) ++ beBytes 2 (d.massLoss.getD 0) ++
  (match d.ree with | some r => beBytes 3 r | none => []) ++
  (if k == .docketReturn then packFindings d.findings else d.findings.map findingByte) ++
  (match d.lotEntry with | some e => [BitVec.ofNat 8 e] | none => []) ++
  (match d.reason with | some c => [BitVec.ofNat 8 c.code] | none => []) ++
  (match d.test with | some t => testBytes t | none => [])

/-- Reads from the front of a body. -/
abbrev Reader := StateT (List Byte) Option

/-- The next `n` bytes as a number. -/
def readNat (n : Nat) : Reader Nat := fun bs =>
  if bs.length < n then none else some (beNat (bs.take n), bs.drop n)

/-- Nothing, when the body fails the check. -/
def require (b : Bool) : Reader Unit := fun bs => if b then some ((), bs) else none

/-- A number that must lie in its range (R16). -/
def readIn (n lo hi : Nat) : Reader Nat := do
  let v ← readNat n
  require (lo ≤ v && v ≤ hi)
  pure v

/-- A field that a flag says is present. -/
def readIf {α : Type} (present : Bool) (r : Reader α) : Reader (Option α) :=
  if present then do
    let v ← r
    pure (some v)
  else pure none

/-- The same reading `n` times. -/
def readMany {α : Type} (r : Reader α) : Nat → Reader (List α)
  | 0 => pure []
  | n + 1 => do
    let x ← r
    let xs ← readMany r n
    pure (x :: xs)

/-- A value that must exist. -/
def readSome {α : Type} (o : Option α) : Reader α := fun bs => o.map fun v => (v, bs)

/-- The identity characters: 3 of mfr and `n` of serial (Table 1-8, order 5). -/
def readChars (n : Nat) : Reader (Text × Text) := do
  let k := 3 + n
  let v ← readNat (packedLength k)
  let pad := 2 ^ (8 * packedLength k - 6 * k)
  require (v % pad == 0)
  let codes := unpackCodes k (v / pad)
  require (codes.all (· ≤ 36) && (codes.take 3).all (· ≤ 35))
  pure ((codes.take 3).map codeChar, (codes.drop 3).map codeChar)

/-- A finding byte with its severity: the sent-0 bits read 0 (Table 1-8). -/
def readFinding : Reader Finding := do
  let v ← readNat 1
  require (v % 8 == 0)
  let c ← readSome (FindingCode.ofCode (v / 16))
  pure { code := c, severity := some (if v / 8 % 2 == 1 then .condemn else .minor) }

/-- Packed finding codes of a return, `n` of them (Table 1-8). -/
def readPacked : Nat → Reader (List Finding)
  | 0 => pure []
  | 1 => do
    let v ← readNat 1
    require (v % 16 == 0)
    let a ← readSome (FindingCode.ofCode (v / 16))
    pure [{ code := a, severity := none }]
  | n + 2 => do
    let v ← readNat 1
    let a ← readSome (FindingCode.ofCode (v / 16))
    let b ← readSome (FindingCode.ofCode (v % 16))
    let rest ← readPacked n
    pure ({ code := a, severity := none } :: { code := b, severity := none } :: rest)

/-- A cause whose code lies in its permitted set (R12). -/
def readCause (lo hi : Nat) : Reader Cause := do
  let v ← readIn 1 lo hi
  readSome (Cause.ofCode v)

/-- A 24-bit two's complement number. -/
def readSigned24 : Reader Int := do
  let v ← readNat 3
  pure (BitVec.ofNat 24 v).toInt

/-- No code stands twice in a list (R9, R16). -/
def distinctCauses : List Cause → Bool
  | [] => true
  | c :: rest => !rest.contains c && distinctCauses rest

/-- The test part of a return, with the checks R16 makes on it; ratio and E_e are computed at stage 3 (R16). -/
def readTest (sender : Addr) : Reader TestPart := do
  let b1 ← readNat 1
  let b2 ← readNat 1
  let b3 ← readNat 1
  require (b3 % 8 == 0)
  let nCond := b2 / 64
  let stage := b3 / 8 % 4
  let verdict := Verdict.ofCode (b1 / 2 % 4)
  let noCylinder := b1 / 8 % 2 == 1
  let hasCause := b1 % 2 == 1
  require (b1 / 16 == sender.toNat)
  require (hasCause || b2 % 64 == 0)
  let cause ← readIf hasCause (do
    require (1 ≤ b2 % 64 && b2 % 64 ≤ 21)
    readSome (Cause.ofCode (b2 % 64)))
  require (hasCause == (verdict != .pass))
  require (noCylinder == (verdict == .notTested))
  let peak ← readNat 2
  let zeroStamp ← readIf (b3 / 128 == 1) (readNat 2)
  let holdStart ← readIf (b3 / 64 % 2 == 1) (readNat 2)
  let holdEnd ← readIf (b3 / 32 % 2 == 1) (readNat 2)
  let holdMean ← readIf (b3 / 32 % 2 == 1) (readNat 2)
  let et ← readIf (1 ≤ stage) readSigned24
  let ep ← readIf (2 ≤ stage) readSigned24
  let conditions ← readMany (readCause 1 14) nCond
  require (distinctCauses conditions && (stage == 0 || conditions.isEmpty))
  let e := et.getD 0
  let p := ep.getD 0
  require (stage != 3 || (0 < e && 0 ≤ p && p ≤ e))
  pure { head := sender, noCylinder := noCylinder, peak := peak, holdMean := holdMean, zeroStamp := zeroStamp,
         holdStart := holdStart, holdEnd := holdEnd, et := et, ep := ep,
         ee := if stage == 3 then some (e - p) else none,
         ratio := if stage == 3 then some (p.natAbs * 10000 / e.natAbs) else none,
         conditions := conditions, verdict := verdict, cause := cause }

/-- What a docket of each kind must carry, and must not (R16). -/
def kindForm (k : MsgKind) (d : Docket) : Bool :=
  match k with
  | .docketOffer => d.test.isNone && d.lotEntry.isNone && d.reason.isNone && d.intent == some .test &&
      d.ratioLimit.isSome
  | .docketDirect => d.test.isNone && d.intent != some .test && d.reason.isSome
  | .docketReturn => d.test.isSome && d.intent == some .test && d.lotEntry.isNone && d.reason.isNone &&
      d.ratioLimit.isSome
  | _ => false

/-- The body read whole, field by field (R16). A serial length of 0 or above 12 fails, though R16 names the ranges of
Tables 1-2 to 1-4 only: the length is in Table 1-8 (DESIGN CHOICE, log 16). -/
def readDocket (k : MsgKind) (sender : Addr) : Reader Docket := do
  let b0 ← readNat 1
  let tag ← readNat 2
  let b3 ← readNat 1
  require (b3 % 2 == 0)
  let intent ← readSome (Intent.ofCode (b3 / 4 % 8))
  let nSerial ← readIn 1 1 12
  let id ← readChars nSerial
  let months ← readNat 1
  let lastMonth := months / 16
  let month := months % 16
  require (1 ≤ lastMonth && lastMonth ≤ 12 && 1 ≤ month && month ≤ 12)
  let lastYear ← readIn 1 0 99
  let mfgYear ← readIn 1 0 99
  let year ← readIn 1 0 99
  let testPressure ← readIn 2 500 45000
  let waterCapacity ← readIn 2 5 1500
  let tare ← readIn 2 50 20000
  let limits := b3 / 2 % 2 == 1
  let ratioLimit ← readIf limits (readIn 2 100 2000)
  let holdTime ← readIf limits (readIn 2 10 300)
  let mass ← readIn 2 1 30000
  let massLoss ← readIn 2 0 10000
  let ree ← readIf (b0 / 128 == 1) (readIn 3 1 1000000)
  require (b0 % 8 ≤ 6)
  let findings ← if k == .docketReturn then readPacked (b0 % 8) else readMany readFinding (b0 % 8)
  let lotEntry ← readIf (b0 / 64 % 2 == 1) (readIn 1 0 15)
  let reason ← readIf (b0 / 32 % 2 == 1) (readCause 32 41)
  let test ← readIf (b0 / 16 % 2 == 1) (readTest sender)
  pure { tag := some tag, mfr := id.1, serial := id.2, hash := identityHash id.1 id.2, cls := b3 / 32 + 1,
         testPressure := testPressure, waterCapacity := waterCapacity, tare := tare, ree := ree,
         ratioLimit := ratioLimit, holdTime := holdTime, lastMonth := lastMonth, lastYear := lastYear,
         mfgYear := mfgYear, period := some { month := month, year := 2000 + year }, mass := some mass,
         massLoss := some massLoss, findings := findings, retest := b0 / 8 % 2 == 1, lotEntry := lotEntry,
         intent := some intent, reason := reason, test := test }

/-- The docket that a body of kind `k` from `sender` carries, if the body passes the form check: every byte is used,
every check of R16 holds; the receiver's computed fields are in it. -/
def parseDocket (k : MsgKind) (sender : Addr) (body : List Byte) : Option Docket :=
  match readDocket k sender body with
  | some (d, []) => if kindForm k d then some d else none
  | _ => none

end Sys2Proof.Machine
end

