-- ==== Sys2Proof/Machine/Flags.lean ====
section
/-! DEFINITION. What a station shows and derives from its state: roles, post words, posted states, outputs, placement,
ranking, reasons to call, the lamp and the texts of its lines. Nothing here changes the state. -/

namespace Sys2Proof.Machine

/-- The sixteen line addresses in order. -/
def allAddrs : List Addr := [0, 1, 2, 3, 4, 5, 6, 7, 8, 9, 10, 11, 12, 13, 14, 15]

/-- The role of a running station; none before the line interface is released (R181, R184). -/
def State.role (s : State) : Option Role :=
  if s.loader.phase == .running then Role.ofCode s.loader.straps.role else none

/-- A running TEST head. -/
def State.isHead (s : State) : Bool := s.role == some .test

/-- A running INSPECT station, out of ROLE_CONFLICT (R38). -/
def State.ieuActs (s : State) : Bool := s.role == some .inspect && !s.lif.roleConflict

/-- A running DISPOSE station, out of ROLE_CONFLICT (R38). -/
def State.dsuActs (s : State) : Bool := s.role == some .dispose && !s.lif.roleConflict

/-- The station's own line address (R181). -/
def State.ownAddr (s : State) : Addr := s.loader.straps.addr

/-- The peer view table entry of an address. -/
def State.entry (s : State) (a : Addr) : PvtEntry := s.pvt.getD a.toNat {}

/-! ### Post words -/

/-- A post word from its role, state code and argument, with its check (Table 2-5, R27). -/
def makePost (r : Role) (state arg : Nat) : PostWord :=
  let hi : BitVec 13 := 0#1 ++ r.code ++ BitVec.ofNat 4 state ++ BitVec.ofNat 6 arg
  hi ++ crc3 hi

/-- The role field of a post word. -/
def postRole (w : PostWord) : Option Role := Role.ofCode (w.extractLsb' 13 2)
/-- The state field of a post word. -/
def postState (w : PostWord) : Nat := (w.extractLsb' 9 4).toNat
/-- The argument field of a post word. -/
def postArg (w : PostWord) : Nat := (w.extractLsb' 3 6).toNat

/-- The argument range of Table 2-6; false for a state code that the role does not have. -/
def argumentOk (r : Role) (state arg : Nat) : Bool :=
  match r with
  | .test =>
    match state with
    | 1 => true
    | 5 => true
    | 11 => true
    | 13 => 1 ≤ arg && arg ≤ 14
    | 14 => (1 ≤ arg && arg ≤ 14) || (24 ≤ arg && arg ≤ 28)
    | 15 => false
    | _ => arg == 63
  | .inspect => state ≤ 6 && arg ≤ 8
  | .dispose => state ≤ 6 && arg ≤ 6

/-- The form check of a post word (R30). -/
def postFormOk (w : PostWord) : Bool :=
  match postRole w with
  | some r => argumentOk r (postState w) (postArg w)
  | none => false

/-- The classification of a post as read (R30). -/
def classifyPost (w : PostWord) : View :=
  if w == BitVec.allOnes 16 then .absent
  else if !w.getMsbD 0 && crc3 (w.extractLsb' 3 13) == w.extractLsb' 0 3 && postFormOk w then .intact w
  else .unknown

/-- An intact post of a role in one of some states. -/
def View.shows (v : View) (r : Role) (states : List Nat) : Bool :=
  match v with
  | .intact w => postRole w == some r && states.contains (postState w)
  | _ => false

/-- The argument of an intact post; 0 for another entry. -/
def View.arg (v : View) : Nat := match v with | .intact w => postArg w | _ => 0

/-- The urgent flag in a WAIT_RAMP or DONE argument (Table 2-6). -/
def argUrgent (a : Nat) : Bool := 32 ≤ a
/-- The age in a WAIT_RAMP or DONE argument (Table 2-6). -/
def argAge (a : Nat) : Nat := a % 32

/-- The argument without its age field (R23, R29). -/
def argNoAge (r : Option Role) (state arg : Nat) : Nat :=
  if r == some .test then
    if state == 1 then 0 else if state == 5 || state == 11 then arg / 32 else arg
  else arg

/-- Two post words differ in a field other than an age field (R23). -/
def postChanged (w v : PostWord) : Bool :=
  postRole w != postRole v || postState w != postState v ||
  argNoAge (postRole w) (postState w) (postArg w) != argNoAge (postRole v) (postState v) (postArg v)

/-- The argument a head posts (Table 2-6, R28). -/
def headArg (s : State) (h : HeadState) : Nat :=
  match h with
  | .idle => s.tsq.idleAge
  | .waitRamp => bitIf s.adm.urgent 32 + s.adm.waitAge
  | .done => bitIf s.tsq.doneUrgent 32 + s.tsq.doneAge
  | .safe => match s.ilk.inForce with | some c => c.code | none => 0
  | .outOfService => match s.tsq.oosCause with | some c => c.code | none => 0
  | _ => 63

/-- Places of the arrival queue, less those held, less the one a call reserves (R159). -/
def Dsu.free (d : Dsu) : Nat := Config.arrivalCap - d.arrival.length - (if d.call.isSome then 1 else 0)

/-- The state DISPOSE posts: the first condition that stands (R158). -/
def disposeState (s : State) : DisposeState :=
  if s.lif.roleConflict then .conflict
  else if s.dsu.stopCopy then .estop
  else if s.dsu.halt.isSome then .halt
  else if Config.recordCap ≤ s.dsu.recBuffer.length then .recordHold
  else if s.dsu.free == 0 then .full
  else if s.dsu.call.isSome then .calling
  else .ready

/-- The post word the station would latch now (R20, R28); none before release. -/
def State.postNow (s : State) : Option PostWord :=
  match s.role with
  | some .inspect =>
    some (makePost .inspect (if s.lif.roleConflict then 0 else s.ieu.state.code) s.ieu.infeed.length)
  | some .test =>
    match s.tsq.state with
    | some h => some (makePost .test h.code (headArg s h))
    | none => none
  | some .dispose => some (makePost .dispose (disposeState s).code s.dsu.arrival.length)
  | none => none

/-- The station wants PACED mode (R21, R38). -/
def State.wantsPaced (s : State) : Bool :=
  (s.isHead && (s.tsq.state == some .waitRamp || s.tsq.state == some .ramping)) ||
  (s.dsuActs && s.dsu.call.isSome)

/-- A reason to call stands (R23, R24, R35, R38). -/
def State.reasonToCall (s : State) : Bool :=
  let alive := s.lif.keepAlive == .expired
  if s.lif.roleConflict || !s.lif.joined then alive
  else
    match s.lif.mode with
    | .paced => s.lif.pacing == .expired || alive
    | .quiet =>
      alive || !s.txq.isEmpty ||
      (match s.postNow, (s.entry s.ownAddr).view with
       | some w, .intact v => postChanged w v
       | _, _ => false)

/-! ### Placement, ranking and the share -/

/-- A head's card covers a docket (R50, R66). -/
def Card.covers (c : Card) (d : Docket) : Bool :=
  match c.role, c.head with
  | .test, some h => d.testPressure ≤ h.rating && d.waterCapacity ≤ h.capacity
  | _, _ => false

/-- The card held for an address covers a docket. -/
def State.cardCovers (s : State) (d : Docket) (a : Addr) : Bool :=
  match (s.entry a).card with
  | some c => c.covers d
  | none => false

/-- Some head card of the table covers the docket: at a round's end, the table as its update leaves it (R51, R73). -/
def State.covered (s : State) (d : Docket) : Bool := allAddrs.any (s.cardCovers d)

/-- The card of an address as the last complete round left it: a card that came in the round in progress is not kept
yet (R34, R53). -/
def State.settledCard (s : State) (a : Addr) : Option Card :=
  if s.lif.round.cardFrom == some a then s.lif.round.cardBefore else (s.entry a).card

/-- Some head card of the table as the last complete round left it covers the docket (R34, R66 step 7). -/
def State.coveredSettled (s : State) (d : Docket) : Bool :=
  allAddrs.any fun a => match s.settledCard a with | some c => c.covers d | none => false

/-- An address is a candidate for a docket (R50). -/
def State.candidate (s : State) (d : Docket) (a : Addr) : Bool :=
  (s.entry a).view.shows .test [1] && s.cardCovers d a

/-- The first address of a list with the greatest key. -/
def firstMax (key : Addr → Nat) : List Addr → Option Addr
  | [] => none
  | a :: rest =>
    match firstMax key rest with
    | none => some a
    | some b => if key a < key b then some b else some a

/-- The head the placement rule chooses: greatest idle age, then lowest address (R50). -/
def State.chosenHead (s : State) (d : Docket) : Option Addr :=
  firstMax (fun a => (s.entry a).view.arg) (allAddrs.filter (s.candidate d))

/-- The head the arbiter picks: urgent before normal, then the greater done age, then the lower address (R164). The
argument of a DONE post orders the first two. -/
def State.headToCall (s : State) : Option Addr :=
  firstMax (fun a => (s.entry a).view.arg) (allAddrs.filter fun a => (s.entry a).view.shows .test [11])

/-- The K that a TEST card at an address carries (R114). -/
def State.cardK (s : State) (a : Addr) : Option Nat :=
  match (s.entry a).card with
  | some { role := .test, head := some h, .. } => some h.k
  | _ => none

/-- K_eff: the smallest K of the TEST cards held, and of the head's own profile (R113, R114). -/
def State.effectiveK (s : State) : Nat := (allAddrs.filterMap s.cardK).foldl min s.params.k

/-- The lowest address whose TEST card carries a K below the head's own (R115). -/
def State.lowKAddr (s : State) : Option Addr :=
  allAddrs.find? fun a => match s.cardK a with | some k => k < s.params.k | none => false

/-- A rank-1 entry of Table 7-2 (R118). -/
def State.rankOne (s : State) (a : Addr) : Bool :=
  let e := s.entry a
  e.view.shows .test [6] ||
  (e.view == .unknown && (match e.card with | some c => c.role == .test | none => false))

/-- In rank 2, `a` stands before `b`: urgent first, then the greater wait age, then the lower address (R118). The
WAIT_RAMP argument orders the first two. -/
def State.waitsBefore (s : State) (a b : Addr) : Bool :=
  let x := (s.entry a).view.arg
  let y := (s.entry b).view.arg
  y < x || (x == y && a.toNat < b.toNat)

/-- The head has a claim: its own entry is an intact WAIT_RAMP post (R119). -/
def State.hasClaim (s : State) : Bool := (s.entry s.ownAddr).view.shows .test [5]

/-- The count ahead of the head (R118). -/
def State.countAhead (s : State) : Nat :=
  (allAddrs.filter fun a =>
    s.rankOne a || ((s.entry a).view.shows .test [5] && s.waitsBefore a s.ownAddr)).length

/-! ### Outputs -/

/-- The outputs of a head (Table 6-1); `true` is open, on or asserted. -/
structure HeadOutputs where
  fillV : Bool
  jacketV : Bool
  pressV : Bool
  ventV : Bool
  tripV : Bool
  drainV : Bool
  lidLock : Bool
  unloadGate : Bool
  pumpDemand : Bool
deriving DecidableEq, Repr

/-- What a head drives: by its state, in SAFE by the response in force (Table 6-3, R89, R148, R149), and the reset
settings while it has no state. -/
def headOutputs (s : State) : HeadOutputs :=
  let h := s.tsq.state
  let trip := match s.ilk.inForce with | some c => c.isTrip | none => true
  let atRest := h == none || h == some .idle || h == some .loading || h == some .done || h == some .unloading ||
    h == some .outOfService
  { fillV := h == some .filling
    jacketV := h == some .filling
    pressV := h == some .ramping
    ventV := atRest || h == some .filling || h == some .venting || h == some .settling || h == some .draining ||
      h == some .safe
    tripV := atRest || (h == some .safe && trip)
    drainV := h == some .draining
    lidLock := s.tsq.lidLock
    unloadGate := s.tsq.gateOpen
    pumpDemand := h == some .ramping }

/-- INTAKE_READY (R55). -/
def intakeReady (s : State) : Bool := s.ieuActs && s.ieu.state == .ready && s.ieu.stage == .idle

/-- A pulse output of INSPECT is active (R72). -/
def pulseActive (s : State) (p : Pulse) : Bool :=
  s.ieu.stage == .pulsing p || s.ieu.infeedCh == .pulsing p || s.ieu.bypass == .pulsing p

/-- MARK_READY (R166). -/
def markReady (s : State) : Bool :=
  let p := disposeState s
  s.dsuActs && p != .estop && p != .halt && p != .recordHold && s.dsu.work.isNone

/-- LANE_RELEASE (R168). -/
def laneRelease (s : State) : Bool :=
  s.dsuActs && match s.dsu.work with | some w => w.phase == .lane | none => false

/-- An indication of the lamp when its condition stands (R185). -/
def lampIf (b : Bool) (code : Nat) : Option LampWord := if b then some { code := code, addr := none } else none

/-- An indication that carries an address (R185). -/
def lampAddr (o : Option Addr) (code : Nat) : Option LampWord := o.map fun a => { code := code, addr := some a }

/-- The indication of a cause, when it stands (R185). -/
def lampCause (o : Option Cause) : Option LampWord := o.map fun c => { code := c.code, addr := none }

/-- The cause a head shows in SAFE and in OUT_OF_SERVICE (R157). -/
def headLamp (s : State) : Option LampWord :=
  if s.tsq.state == some .safe then lampCause s.ilk.inForce
  else if s.tsq.state == some .outOfService then lampCause s.tsq.oosCause
  else none

/-- The code the lamp shows: the first that stands in the role's order (Table 11-5). -/
def lampShown (s : State) : LampWord :=
  let startUp := lampCause s.loader.fault
  let address := lampIf (s.lif.state == .addressConflict) 28
  let stale := lampAddr s.lif.staleAddr 29
  let shown := match s.role with
    | none => [startUp]
    | some .inspect =>
      [startUp, address, lampIf s.lif.roleConflict 27, lampIf s.ilk.stopFlag 1, lampIf s.ieu.directFault 24,
       lampIf (Config.stallCount ≤ s.ieu.stall) 31, stale]
    | some .test => [startUp, address, headLamp s, lampAddr s.adm.mismatch 30, stale]
    | some .dispose =>
      [startUp, address, lampIf s.lif.roleConflict 27, lampIf s.ilk.stopFlag 1,
       lampCause s.dsu.halt, stale]
  (shown.findSome? id).getD { code := 0, addr := none }

/-- The two lines of the marking link as they stand between commands: every exchange is whole within its command, so
MK_CLK rests high and MK_DATA is released (R158, R169). `true` is high, and released. -/
def markClock (_s : State) : Bool := true
def markDataReleased (_s : State) : Bool := true

/-! ### Texts -/

/-- A line as a serial port sends it: its characters, then the line feed (R60, R176). -/
def sentLine (t : Text) : Text := t ++ [0x0A]

/-- A reply line of port B at INSPECT (R58 to R66, R71). -/
def replyText : Reply → Text
  | .ok => ascii "OK"
  | .okId m n => ascii "OK ID " ++ m ++ ascii " " ++ n
  | .okMass n => ascii "OK " ++ decText n
  | .okJoin tag i r =>
    ascii "OK " ++ decText tag ++ ascii " " ++ i.name ++ (match r with | some c => ascii " " ++ c.name | none => [])
  | .idRejected n => ascii "ID REJECTED " ++ decText n
  | .busy => ascii "BUSY"
  | .full => ascii "FULL"
  | .errSyntax => ascii "ERR SYNTAX"
  | .errState => ascii "ERR STATE"
  | .errRange => ascii "ERR RANGE"
  | .errCode => ascii "ERR CODE"
  | .errNoMass => ascii "ERR NOMASS"
  | .errNoFault => ascii "ERR NOFAULT"
  | .errCancelled => ascii "ERR CANCELLED"

/-- An optional cause by name. -/
def causeText (o : Option Cause) : Text := match o with | some c => c.name | none => []

/-- Role names (file 00). -/
def Role.name : Role → Text
  | .inspect => ascii "INSPECT"
  | .test => ascii "TEST"
  | .dispose => ascii "DISPOSE"

/-- The seven test fields of a docket line: verdict, verdict_cause, conditions, E_t, E_p, ratio and head (Table 10-5). -/
def testFields (o : Option TestPart) : List Text :=
  match o with
  | none => [[], [], [], [], [], [], []]
  | some t =>
    [t.verdict.name, causeText t.cause, joinWith 0x2C (t.conditions.map Cause.name),
     (match t.et with | some v => decTextInt v | none => []), (match t.ep with | some v => decTextInt v | none => []),
     (match t.ratio with | some v => decText v | none => []), decText t.head.toNat]

/-- A record line (Table 10-5). -/
def recordText : RecLine → Text
  | .docket d =>
    joinWith 0x3B
      ([ascii "DKT", decText (d.tag.getD 0), d.mfr, d.serial, decText d.cls,
        (match d.intent with | some i => i.name | none => []), causeText d.reason] ++ testFields d.test ++
       [(match d.period with | some p => decText2 p.month ++ ascii "/" ++ decText p.year | none => []),
        (match d.disposal with | some p => p.disposition.name | none => []),
        (match d.disposal with | some p => causeText p.cause | none => [])])
  | .stray m n =>
    joinWith 0x3B ([ascii "DKT", ascii "0", m, n] ++ List.replicate 11 [] ++
      [Disposition.held.name, Cause.stray.name])
  | .card a c =>
    joinWith 0x3B
      ([ascii "CRD", decText a.toNat, c.role.name, (if c.cause == .pin then ascii "PIN" else ascii "POWER_ON"),
        (if c.clamped then ascii "CLAMPED" else ascii "GOOD")] ++
       (match c.head with
        | some h => [decText h.rating, decText h.capacity, decText h.k]
        | none => [[], [], []]))

/-- The stamp text: plant mark, a space, month and year of the intake period in two digits each (R171). -/
def stampText (mark : Text) (d : Docket) : Text :=
  let p := d.period.getD { month := 0, year := 2000 }
  mark ++ 0x20 :: (decText2 p.month ++ decText2 (p.year % 100))

end Sys2Proof.Machine
end

