-- ==== Sys2Proof/Machine/Ops.lean ====
section
/-! DEFINITION. The shared operations on a station's state: the transmit queue, the peer view table, the tick counters
and the round. No operation here touches the queue of commands. -/

namespace Sys2Proof.Machine

/-! ### Transmit queue (R46 to R48) -/

/-- The order of kinds in the queue and on the line: urgency, then kind code (R46). -/
def MsgKind.order (k : MsgKind) : Nat := k.urgencyCell * 8 + k.code

/-- A message takes its place after every message that sorts at or before it (R46). -/
def insertMsg (m : TxMsg) : List TxMsg → List TxMsg
  | [] => [m]
  | x :: rest => if x.kind.order ≤ m.kind.order then x :: insertMsg m rest else m :: x :: rest

/-- A message of the kind stands in the queue. -/
def State.hasMsg (s : State) (k : MsgKind) : Bool := s.txq.any fun m => m.kind == k

/-- The queue has a free place (R46). -/
def State.txRoom (s : State) : Bool := s.txq.length < Config.txCap

/-- Queue a message; it is dropped when there is no free place, and in ROLE_CONFLICT (R38, R46). -/
def queueMsg (m : TxMsg) (s : State) : State :=
  if s.txRoom && !s.lif.roleConflict then s.withTxq (insertMsg m s.txq) else s

/-- A sending of the station's own message is in progress: it won the window, and its frame has not ended (R48). -/
def State.sending (s : State) : Bool :=
  s.lif.state == .inRound && s.lif.round.won &&
  (s.lif.round.stage == .window || s.lif.round.stage == .accept)

/-- Withdraw the messages of a kind: at once, or at the end of the sending that is in progress (R48). -/
def withdrawMsg (k : MsgKind) (s : State) : State :=
  s.withTxq (s.txq.filterMap fun m =>
    if m.kind != k then some m
    else if m.contending && s.sending then some { m with withdraw := true }
    else none)

/-- The message that contends in this round (R39). -/
def State.contender (s : State) : Option TxMsg := s.txq.find? fun m => m.contending

/-- Remove the message that contends in this round. -/
def removeContender (s : State) : State := s.withTxq (s.txq.eraseP fun m => m.contending)

/-- Count one unaccepted sending of the message that contends; a message withdrawn meanwhile leaves (R47, R48). -/
def countUnaccepted (s : State) : State :=
  s.withTxq (s.txq.filterMap fun m =>
    if !m.contending then some m
    else if m.withdraw then none
    else some { m with attempts := m.attempts + 1 })

/-- A directed message, not an offer, whose attempt count has reached 4 (R48, R51). -/
def TxMsg.exhausted (m : TxMsg) : Bool :=
  m.kind.directed && m.kind != .docketOffer && Config.dropCount ≤ m.attempts

/-! ### Cards and the peer view table (R31 to R36, R53) -/

/-- Change one entry of the peer view table. -/
def setEntry (a : Addr) (e : PvtEntry) (s : State) : State := s.withPvt (s.pvt.set a.toNat e)

/-- The station's own card (R53). -/
def ownCard (r : Role) (s : State) : Card :=
  { role := r, cause := s.loader.cause, clamped := s.loader.clamped,
    head := if r == .test then
        some { rating := s.params.ratingKpa, capacity := s.params.capacity, k := s.params.k }
      else none }

/-- Queue the station's card; a card still queued goes out as it is (R36). -/
def queueCard (r : Role) (s : State) : State :=
  if s.hasMsg .stationCard then s
  else queueMsg { kind := .stationCard, dest := 0xFF, body := cardBody (ownCard r s) } s

/-- A head computes K_eff and the mismatch address again (R114, R115). -/
def refreshShare (s : State) : State :=
  if s.isHead then s.withAdm { s.adm with kEff := s.effectiveK, mismatch := s.lowKAddr } else s

/-! ### Tick counters (R91, R147) -/

/-- The counter advances at a tick, to 65,535 at most; a counter set to 0 at this tick does not advance (log 3). -/
def TickCounter.advance (c : TickCounter) : TickCounter :=
  if c.fresh then { c with fresh := false } else { c with ticks := min 65535 (c.ticks + 1) }

/-- The count as an event of this tick finds it. -/
def TickCounter.at (c : TickCounter) (o : TickOrder) : Nat :=
  match o with
  | .afterSample => c.ticks
  | .beforeSample _ _ => if c.fresh then c.ticks else c.ticks + 1

/-- A timed length expires at the tick at which the count equals it, and the expiry is taken at that tick (R91). -/
def TickCounter.expires (c : TickCounter) (o : TickOrder) (len : Nat) : Bool := c.at o == len

/-- A counter started now. -/
def State.newCounter (s : State) : TickCounter := { ticks := 0, fresh := s.tsq.tickOpen }

/-! ### The round -/

/-- Change the round in progress. -/
def withRound (r : Round) (s : State) : State := s.withLif { s.lif with round := r }

/-- The interface returns to IDLE_WAIT at the end of its part in a round (R18); the receive buffer is cleared (R42). -/
def toIdleWait (s : State) : State :=
  s.withLif { s.lif with state := .idleWait, idleCount := 0, round := {}, rxBuffer := none }

/-- The end of a complete round (R18, R32): as at the end of any part in a round; an interface that has left the window
early (R40, R42) is in IDLE_WAIT already and goes on counting there. -/
def endRound (s : State) : State :=
  if s.lif.state == .inRound then toIdleWait s
  else s.withLif { s.lif with round := {}, rxBuffer := none }

/-- The pacing timer starts at the end of every round taken part in while the mode is PACED (R24, log 20). -/
def pacingAtEnd (m : LineMode) : Timer := match m with | .paced => .running | .quiet => .stopped

/-- The low 16 bits of the local round counter (R8). -/
def State.roundStamp (s : State) : Nat := s.lif.roundCounter.toNat % 65536

end Sys2Proof.Machine
end

