-- ==== Sys2Proof/Machine/Disposal.lean ====
section
/-! DEFINITION. The disposal unit: arrival queue, calls, marking, punch, lanes and the record output (file 10). -/

namespace Sys2Proof.Machine

/-! ### The record output (R176 to R178) -/

/-- The verdict note of a finished docket (R54, R178). -/
def noteOf (d : Docket) : Note :=
  let disp := match d.disposal with | some p => p.disposition | none => .held
  let bad := match d.test with | some t => t.verdict == .invalid | none => false
  { hash := d.hash, disposition := disp, invalid := disp == .returned && bad, tag := d.tag.getD 0 }

/-- Queue the note of a docket; a full queue drops it (R46, R54). -/
def queueNote (d : Docket) (s : State) : State :=
  queueMsg { kind := .verdictNote, dest := 0xFF, body := noteBody (noteOf d) } s

/-- The work slot once its docket is discarded: empty when the cylinder has left (R168, R178). -/
def Work.discarded (w : Work) : Option Work :=
  if w.phase == .gone then none else some { w with item := .finished }

/-- What a line's entry into the buffer finishes (R178). -/
def finishLine (w : Waiter) (s : State) : State :=
  match w.source, w.line with
  | .work, .docket d => queueNote d (s.withDsu { s.dsu with work := s.dsu.work.bind Work.discarded })
  | .queued m n, .docket d =>
    queueNote d (s.withDsu { s.dsu with arrival := s.dsu.arrival.eraseP fun a => a.docket.sameIdentity m n })
  | _, _ => s

/-- A line enters the buffer (R176). -/
def enterBuffer (w : Waiter) (s : State) : State :=
  finishLine w (s.withDsu { s.dsu with recBuffer := s.dsu.recBuffer ++ [w.line] })

/-- Two waiters are card lines of one address. -/
def Waiter.sameCard (x y : Waiter) : Bool :=
  match x.source, y.source with
  | .card a, .card b => a == b
  | _, _ => false

/-- A waiter joins the back of the list; a newer card line of an address replaces a waiting one (R176, R177). It takes the
old line's place: the spec does not say whether it keeps that place or goes to the back (DESIGN CHOICE, log 38). -/
def addWaiter (w : Waiter) (l : List Waiter) : List Waiter :=
  if l.any w.sameCard then l.map fun x => if w.sameCard x then w else x else l ++ [w]

/-- Produce a record line (R176). -/
def produceLine (w : Waiter) (s : State) : State :=
  if s.dsu.recBuffer.length < Config.recordCap then enterBuffer w s
  else s.withDsu { s.dsu with recWaiters := addWaiter w s.dsu.recWaiters }

/-- The oldest line has been sent: it leaves the buffer, and the oldest waiter enters (R176). -/
def lineSent (s : State) : State :=
  match s.dsu.recBuffer with
  | [] => s
  | l :: rest =>
    let s1 := s.withPorts { s.ports with recSent := some (sentLine (recordText l)) }
    match s1.dsu.recWaiters with
    | [] => s1.withDsu { s1.dsu with recBuffer := rest }
    | w :: more => enterBuffer w (s1.withDsu { s1.dsu with recBuffer := rest, recWaiters := more })

/-- The port sends under REC_CTS, which it reads before each character: while the input reads inactive it waits, and the
line stays in the buffer (R176). -/
def sendRecord (cts : Bool) (s : State) : State :=
  let s1 := s.withPorts { s.ports with recCts := cts }
  if cts then lineSent s1 else s1

/-- RECORD_LINE_SENT (R176). -/
def execRecordLineSent (s : State) (cts : Bool := true) : Out :=
  if s.dsuActs then .next (sendRecord cts s) else .next s

/-- A card line of an address (R176, R177). -/
def cardLine (a : Addr) (c : Card) : Waiter := { line := .card a c, source := .card a }

/-! ### Lanes (R168) -/

/-- LANE codes (Table 10-1). -/
def laneGood : BitVec 2 := 0
def laneScrap : BitVec 2 := 1
def laneReturn : BitVec 2 := 2
def laneHold : BitVec 2 := 3

/-- Change the phase of the cylinder in work. -/
def setPhase (p : ActionPhase) (s : State) : State :=
  s.withDsu { s.dsu with work := s.dsu.work.map fun w => { w with phase := p } }

/-- Enter the LANE phase, owed while a stop stands (R168; log 32). -/
def enterLane (lane : BitVec 2) (s : State) : State :=
  let s1 := s.withDsu { s.dsu with lane := lane }
  setPhase (if s1.dsu.stopCopy then .laneOwed else .lane) s1

/-- The docket in the work slot. -/
def Dsu.workDocket (d : Dsu) : Option Docket :=
  match d.work with
  | some { item := .docket x, .. } => some x
  | _ => none

/-- The disposition of the docket in work is decided: its disposal part, its record line, the LANE phase (R167). -/
def settle (disp : Disposition) (cause : Option Cause) (lane : BitVec 2) (s : State) : State :=
  match s.dsu.workDocket with
  | some d =>
    let d1 := { d with disposal := some { disposition := disp, cause := cause } }
    let s1 := s.withDsu { s.dsu with work := s.dsu.work.map fun w => { w with item := .docket d1 } }
    enterLane lane (produceLine { line := .docket d1, source := .work } s1)
  | none => s

/-- The LANE_RELEASE pulse ends: the cylinder has left; a docket whose line waits keeps the slot (R168). -/
def laneEnd (s : State) : State :=
  match s.dsu.work with
  | some w =>
    if w.phase == .lane then
      match w.item with
      | .docket _ => setPhase .gone s
      | _ => s.withDsu { s.dsu with work := none }
    else s
  | none => s

/-- LANE_RELEASE_END (R168). -/
def execLaneReleaseEnd (s : State) : Out := if s.dsuActs then .next (laneEnd s) else .next s

/-! ### Punch (R173) -/

/-- The punch phase starts: pulse and timer (R173). -/
def startPunch (s : State) : State :=
  let s1 := setPhase .punching s
  s1.withDsu { s1.dsu with punchPulse := true, punchTimer := .running }

/-- The cylinder in work stands in a phase. -/
def Dsu.inPhase (d : Dsu) (p : ActionPhase) : Bool :=
  match d.work with
  | some w => w.phase == p
  | none => false

/-- PUNCH_DONE reads active in the punch phase (R173). -/
def punchDone (s : State) : State :=
  if s.dsu.inPhase .punching then
    settle .scrapped none laneScrap (s.withDsu { s.dsu with punchTimer := .stopped })
  else s

/-- PUNCH_DONE (R173). -/
def execPunchDone (s : State) : Out := if s.dsuActs then .next (punchDone s) else .next s

/-- The punch timer expires (R173). -/
def punchExpiry (s : State) : State :=
  if s.dsu.inPhase .punching && s.dsu.punchTimer == .running then
    let s1 := setPhase .punchRetry s
    s1.withDsu { s1.dsu with punchTimer := .stopped, halt := some .punchFault }
  else s

/-- PUNCH_TIMEOUT (R173). -/
def execPunchTimeout (s : State) : Out := if s.dsuActs then .next (punchExpiry s) else .next s

/-- PUNCH_PULSE_END (R173; log 29). -/
def execPunchPulseEnd (s : State) : Out :=
  if s.dsuActs then .next (s.withDsu { s.dsu with punchPulse := false }) else .next s

/-! ### Marking link (R169 to R172) -/

/-- A command word (Table 10-4). -/
def linkWord (op pos : Nat) (ch : Byte) (seq : Nat) : BitVec 24 :=
  BitVec.ofNat 4 op ++ BitVec.ofNat 4 pos ++ ch ++ BitVec.ofNat 8 seq

/-- The fields of a reply (Table 10-4). -/
def replyState (w : BitVec 24) : Nat := (w.extractLsb' 20 4).toNat
def replyLoaded (w : BitVec 24) : Nat := (w.extractLsb' 16 4).toNat
def replySeq (w : BitVec 24) : Byte := w.extractLsb' 8 8
def replyStrikes (w : BitVec 24) : Byte := w.extractLsb' 0 8

/-- The fault a reply gives, if it does: the checks of R170 in their order. -/
def replyFault (cmd w : BitVec 24) (stopBit : Bool) : Option Cause :=
  if w == cmd then some .markerSilent
  else if !stopBit || replyState w < 1 || 5 < replyState w || replySeq w != cmd.extractLsb' 0 8 then some .markFault
  else if replyState w == 5 then some .markFault
  else none

/-- One exchange (R169): the word driven, what the register holds after it, the count of words sent. `onReply` gets
the fault of R170, or the good reply. A stop that ends the exchange leaves the register free and judges nothing
(log 7). -/
def exchange (cmd : BitVec 24) (nextSeq : Nat) (r : LinkReply) (onReply : Except Cause (BitVec 24) → State → State)
    (s : State) : State :=
  let s1 := s.withDsu { s.dsu with linkSent := some cmd, linkSeq := nextSeq }
  let judge := fun (w : BitVec 24) (stopBit : Bool) =>
    let s2 := s1.withDsu { s1.dsu with linkReg := w }
    match replyFault cmd w stopBit with
    | some c => onReply (.error c) s2
    | none => onReply (.ok w) s2
  match r with
  | .silent => judge cmd true
  | .word w stopBit => judge w stopBit
  | .stopped =>
    (s1.withDsu { s1.dsu with linkReg := Config.freeLinkWord s1.freeCount }).withFreeCount (s1.freeCount + 1)

/-- A marking fault abandons the sequence (R172). -/
def markFault (c : Cause) (s : State) : State :=
  let s1 := settle .held (some c) laneHold (s.withDsu { s.dsu with strike := .stopped })
  s1.withDsu { s1.dsu with halt := some c }

/-- What a reply does in the sequence: a fault abandons it, a good reply goes on. -/
def onLink (good : BitVec 24 → State → State) (r : Except Cause (BitVec 24)) (s : State) : State :=
  match r with
  | .error c => markFault c s
  | .ok w => good w s

/-- The count of words sent since the last CLEAR stops at 255 (R169). -/
def seqAfter (n : Nat) : Nat := min 255 (n + 1)

/-- The CLEAR exchange of the sequence (R171 step 1). -/
def linkClear (r : LinkReply) (s : State) : State :=
  if s.dsu.inPhase (.marking .clear) then
    exchange (linkWord 1 0 0xFF 0) 1 r (onLink fun _ t => setPhase (.marking (.load 0)) t) s
  else s

/-- LINK_CLEAR (R169). -/
def execLinkClear (r : LinkReply) (s : State) : Out := if s.dsuActs then .next (linkClear r s) else .next s

/-- The stamp text of the docket in work (R171). -/
def State.stamp (s : State) : Text :=
  match s.dsu.workDocket with
  | some d => stampText s.params.plantMark d
  | none => []

/-- The next character to load, if a LOAD is due. -/
def Dsu.loadIndex (d : Dsu) : Option Nat :=
  match d.work with
  | some { phase := .marking (.load i), .. } => some i
  | _ => none

/-- A LOAD exchange (R171 step 2). -/
def linkLoad (r : LinkReply) (s : State) : State :=
  match s.dsu.loadIndex with
  | some i =>
    let text := s.stamp
    exchange (linkWord 2 i (text.getD i 0x20) s.dsu.linkSeq) (seqAfter s.dsu.linkSeq) r
      (onLink fun _ t => setPhase (.marking (if i + 1 < text.length then .load (i + 1) else .query)) t) s
  | none => s

/-- LINK_LOAD (R171). -/
def execLinkLoad (r : LinkReply) (s : State) : Out := if s.dsuActs then .next (linkLoad r s) else .next s

/-- The reply to the QUERY before the strike (R171 step 3). -/
def queryReply (w : BitVec 24) (s : State) : State :=
  if replyState w == 2 && replyLoaded w == s.stamp.length then
    setPhase (.marking .strike) (s.withDsu { s.dsu with baseCount := replyStrikes w })
  else markFault .markFault s

/-- The reply to a QUERY after the strike (R171 step 5). -/
def pollReply (w : BitVec 24) (s : State) : State :=
  if replyState w == 4 then
    if replyStrikes w == s.dsu.baseCount + 1 then
      settle .stamped none laneGood (s.withDsu { s.dsu with strike := .stopped })
    else markFault .markFault s
  else s

/-- A QUERY exchange (R171 steps 3 and 5). -/
def linkQuery (r : LinkReply) (s : State) : State :=
  let ask := fun good => exchange (linkWord 4 0 0xFF s.dsu.linkSeq) (seqAfter s.dsu.linkSeq) r (onLink good) s
  if s.dsu.inPhase (.marking .query) then ask queryReply
  else if s.dsu.inPhase (.marking .poll) then ask pollReply
  else s

/-- LINK_QUERY (R171). -/
def execLinkQuery (r : LinkReply) (s : State) : Out := if s.dsuActs then .next (linkQuery r s) else .next s

/-- The STRIKE exchange; the strike timer starts (R171 step 4). -/
def linkStrike (r : LinkReply) (s : State) : State :=
  if s.dsu.inPhase (.marking .strike) then
    exchange (linkWord 3 0 0xFF s.dsu.linkSeq) (seqAfter s.dsu.linkSeq) r
      (onLink fun _ t => setPhase (.marking .poll) t) (s.withDsu { s.dsu with strike := .running })
  else s

/-- LINK_STRIKE (R171). -/
def execLinkStrike (r : LinkReply) (s : State) : Out := if s.dsuActs then .next (linkStrike r s) else .next s

/-- The strike timer expires before a DONE reply (R171). -/
def strikeExpiry (s : State) : State :=
  if s.dsu.inPhase (.marking .poll) && s.dsu.strike == .running then markFault .markFault s else s

/-- STRIKE_TIMEOUT (R171). -/
def execStrikeTimeout (s : State) : Out := if s.dsuActs then .next (strikeExpiry s) else .next s

/-! ### The marking station (R166, R167) -/

/-- Put an item in the work slot. -/
def putWork (i : WorkItem) (p : ActionPhase) (s : State) : State :=
  s.withDsu { s.dsu with work := some { item := i, phase := p } }

/-- The action of Table 10-3 for the docket now in the work slot (R167). A docket for test without a verdict of the
table never reaches it (R167); no action is taken on one (log 30). -/
def beginAction (d : Docket) (s : State) : State :=
  match d.intent, d.test with
  | some .test, some t =>
    match t.verdict with
    | .pass => setPhase (.marking .clear) s
    | .condemn => startPunch s
    | .invalid => settle .returned none laneReturn s
    | .notTested => setPhase .gone s
  | some .scrap, _ => startPunch s
  | some .ret, _ => settle .returned none laneReturn s
  | some .hold, _ => settle .held none laneHold s
  | some .passThrough, _ => settle .passed none laneGood s
  | _, _ => setPhase .gone s

/-- A queued docket, not marked MISSING, of an identity (R166). -/
def Arrival.isFor (m n : Text) (a : Arrival) : Bool := !a.missing && a.docket.sameIdentity m n

/-- An identity is read: the matching docket goes to the work slot, or the cylinder is a STRAY (R166). -/
def identityRead (m n : Text) (s : State) : State :=
  match s.dsu.arrival.find? (Arrival.isFor m n) with
  | some a =>
    let s1 := s.withDsu { s.dsu with arrival := s.dsu.arrival.eraseP (Arrival.isFor m n) }
    beginAction a.docket (putWork (.docket a.docket) (.marking .clear) s1)
  | none =>
    enterLane laneHold
      (produceLine { line := .stray m n, source := .stray } (putWork (.stray m n) .lane s))

/-- A line at the marking reader (R166): taken while MARK_READY is active and well formed. -/
def markRead (l : PortLine) (s : State) : State :=
  if lineHanded l then
    let b := assembleLine Config.portACap l
    let s1 := s.withPorts { s.ports with lineA := b }
    if markReady s1 then
      match markIdentity b with
      | some (m, n) => identityRead m n s1
      | none => s1
    else s1
  else s.withPorts { s.ports with lineA := {} }

/-- MARK_READER_LINE (R166). -/
def execMarkReaderLine (l : PortLine) (s : State) : Out :=
  if s.role == some .dispose then .next (markRead l s) else .next s

/-! ### Arrival queue (R159 to R162) -/

/-- No queued docket has the identity (R159). -/
def Dsu.fresh (u : Dsu) (d : Docket) : Bool := !u.arrival.any fun a => a.docket.sameIdentity d.mfr d.serial

/-- A docket joins the back of the queue with its timer started (R160, R161). -/
def addArrival (d : Docket) (s : State) : State :=
  s.withDsu { s.dsu with arrival := s.dsu.arrival ++ [{ docket := d }] }

/-- Mark a queued docket MISSING with its disposal part (R162). -/
def Arrival.lost (a : Arrival) : Arrival :=
  { a with missing := true,
           docket := { a.docket with disposal := some { disposition := .missing, cause := some .missing } } }

/-- Finish a queued docket as MISSING (R162). -/
def finishMissing (i : Nat) (s : State) : State :=
  match s.dsu.arrival[i]? with
  | some a =>
    let d := a.lost.docket
    produceLine { line := .docket d, source := .queued d.mfr d.serial }
      (s.withDsu { s.dsu with arrival := s.dsu.arrival.set i a.lost })
  | none => s

/-- An arrival timer has expired for a docket not yet MISSING (R162). -/
def State.arrivalExpired (s : State) (i : Nat) : Bool :=
  match s.dsu.arrival[i]? with
  | some a => !a.missing && s.params.arrivalTime * Config.ticksPerSecond ≤ a.ticks
  | none => false

/-- ARRIVAL_TIMEOUT (R162). -/
def execArrivalTimeout (i : Nat) (s : State) : Out :=
  if s.dsuActs && s.arrivalExpired i then .next (finishMissing i s) else .next s

/-- The docket was accepted without a cylinder. -/
def Docket.noCylinder (d : Docket) : Bool := match d.test with | some t => t.noCylinder | none => false

/-- A return is accepted: the call ends, the docket is queued, and finished as MISSING when it has no cylinder
(R161). -/
def returnAccepted (d : Docket) (s : State) : State :=
  let s1 := addArrival d (s.withDsu { s.dsu with call := none })
  if d.noCylinder then finishMissing s.dsu.arrival.length s1 else s1

/-! ### Calls (R164, R165) -/

/-- A call may be made (R164). -/
def State.mayCall (s : State) : Bool :=
  let p := disposeState s
  s.dsu.call.isNone && !s.hasMsg .releaseCall && s.txRoom && 1 ≤ s.dsu.free &&
  p != .estop && p != .halt && p != .recordHold && p != .conflict && !s.lif.lineSilent

/-- The arbiter's decision at the end of a complete round (R164). -/
def callDecision (s : State) : State :=
  match s.headToCall with
  | some a =>
    if s.mayCall then
      queueMsg { kind := .releaseCall, dest := 0#4 ++ a, body := [] }
        (s.withDsu { s.dsu with call := some { head := a } })
    else s
  | none => s

/-- Change the outstanding call. -/
def withCall (f : Call → Option Call) (s : State) : State := s.withDsu { s.dsu with call := s.dsu.call.bind f }

/-- The call is accepted: its return phase, with the timer restarted (R165). -/
def callAccepted (s : State) : State := withCall (fun c => some { c with returnPhase := true, timer := .running }) s

/-- The call is refused: a call in its call phase ends (R165). -/
def callRefused (s : State) : State := withCall (fun c => if c.returnPhase then some c else none) s

/-- The sending of the call has ended unaccepted: a call whose timer expired during it ends (R165). -/
def callUnaccepted (s : State) : State :=
  withCall (fun c => if c.timer == .expired && !c.returnPhase then none else some c) s

/-- The RELEASE_CALL is being sent (R48, R165). -/
def State.callSending (s : State) : Bool :=
  s.sending && (match s.contender with | some m => m.kind == .releaseCall | none => false)

/-- The call timer expires (R165): during a sending of the call it takes effect at the end of the sending. -/
def callExpiry (s : State) : State :=
  match s.dsu.call with
  | some c =>
    if c.timer == .running then
      withdrawMsg .releaseCall
        (s.withDsu { s.dsu with call :=
          if !c.returnPhase && s.callSending then some { c with timer := .expired } else none })
    else s
  | none => s

/-- CALL_TIMEOUT (R165). In ROLE_CONFLICT it has no effect: the spec does not say whether the timer still ends a call there
(DESIGN CHOICE, log 44). -/
def execCallTimeout (s : State) : Out := if s.dsuActs then .next (callExpiry s) else .next s

/-! ### Stop, CLEAR and conflict (R38, R174, R175) -/

/-- The stop at DISPOSE (R175). -/
def disposeStop (s : State) : State :=
  let s1 := s.withDsu { s.dsu with stopCopy := true, punchPulse := false, punchTimer := .stopped, strike := .stopped }
  match s1.dsu.work with
  | some w =>
    match w.phase with
    | .marking _ => settle .held (some .estop) laneHold s1
    | .punching => setPhase .punchOwed s1
    | .lane => setPhase .laneOwed s1
    | _ => s1
  | none => s1

/-- The end of the stop at DISPOSE: owed pulses start in full (R168, R173, R175). -/
def disposeResume (s : State) : State :=
  let s1 := s.withDsu { s.dsu with stopCopy := false }
  if s1.dsu.inPhase .punchOwed then startPunch s1
  else if s1.dsu.inPhase .laneOwed then setPhase .lane s1
  else s1

/-- The reply to the CLEAR of the panel: a good one ends HALT, and a punch that waits is tried again (R174). -/
def panelReply (r : Except Cause (BitVec 24)) (s : State) : State :=
  match r with
  | .error c => s.withDsu { s.dsu with halt := some c }
  | .ok _ =>
    let s1 := s.withDsu { s.dsu with halt := none }
    if s1.dsu.inPhase .punchRetry then startPunch s1 else s1

/-- A CLEAR edge at DISPOSE: it disarms the input; in HALT it sends CLEAR to the marking head (R174). -/
def panelClear (r : LinkReply) (s : State) : State :=
  if s.dsu.clearArmed then
    let halted := disposeState s == .halt
    let s1 := (s.withInputs { s.inputs with clear := true }).withDsu { s.dsu with clearArmed := false }
    if halted then exchange (linkWord 1 0 0xFF 0) 1 r panelReply s1 else s1
  else s

/-- DISPOSE_CLEAR (R174). -/
def execDisposeClear (r : LinkReply) (s : State) : Out :=
  if s.role == some .dispose then .next (panelClear r s) else .next s

/-- The outputs of DISPOSE in ROLE_CONFLICT: lanes, punch and link at rest (R38), and the timers of punch and strike
stopped with them (DESIGN CHOICE, log 42). An outstanding call stands, with its timer as it is: R38 and R179 do not name
it (DESIGN CHOICE, log 44). -/
def disposeConflict (s : State) : State :=
  s.withDsu { s.dsu with lane := 0, punchPulse := false, punchTimer := .stopped, strike := .stopped }

end Sys2Proof.Machine
end

