-- ==== Sys2Proof/Machine/History.lean ====
section
/-! DEFINITION. The lot hold table and the serial history (file 05). -/

namespace Sys2Proof.Machine

/-- The trailing run of digits of a serial (R78). -/
def trailingDigits (t : Text) : Text := (t.reverse.takeWhile isDigit).reverse

/-- The numeric value of a serial: the last 9 digits of its trailing run (R78). -/
def serialValue (t : Text) : Option Nat :=
  let run := trailingDigits t
  if run.isEmpty then none else some (decValue (run.drop (run.length - 9)))

/-- A match field that is ANY, or equal (R79). -/
def fieldMatches {α : Type} [BEq α] (o : Option α) (v : α) : Bool :=
  match o with
  | none => true
  | some x => x == v

/-- A lot hold entry matches a docket (R77, R79). -/
def lotEntryMatches (e : LotEntry) (d : Docket) : Bool :=
  e.valid && fieldMatches e.mfr d.mfr && fieldMatches e.mfgYear d.mfgYear && fieldMatches e.cls d.cls &&
  (match e.serial with
   | none => true
   | some (lo, hi) => match serialValue d.serial with | some v => lo ≤ v && v ≤ hi | none => false)

/-- The first matching entry, with its index (R79). -/
def lotMatch (lots : List LotEntry) (d : Docket) : Option (Nat × LotEntry) :=
  (lots.zipIdx.find? fun p => lotEntryMatches p.1 d).map fun p => (p.2, p.1)

/-- The set of a hash (R80). -/
def setIndex (h : BitVec 16) : Nat := (h.extractLsb' 0 4).toNat

/-- The set of a hash in a history. -/
def historySet (hist : List HistSet) (h : BitVec 16) : HistSet := hist.getD (setIndex h) {}

/-- A way holds a hash (R80). -/
def Way.holds (w : Way) (h : BitVec 16) : Bool := w.valid && w.hash == h

/-- An entry is stale: 2^31 or more rounds old, modulo 2^32 (R82). -/
def Way.stale (w : Way) (now : BitVec 32) : Bool := 2147483648 ≤ (now - w.stamp).toNat

/-- The way of a set: way 1 or way 0. -/
def HistSet.way (x : HistSet) (one : Bool) : Way := if one then x.way1 else x.way0

/-- Write a way of a set. -/
def HistSet.write (x : HistSet) (one : Bool) (w : Way) : HistSet :=
  if one then { x with way1 := w } else { x with way0 := w }

/-- A way is used: the LRU bit names the other way (R80). -/
def HistSet.use (x : HistSet) (one : Bool) : HistSet := { x with lru1 := !one }

/-- The way that holds a hash, if one does (R80). -/
def HistSet.findWay (x : HistSet) (h : BitVec 16) : Option Bool :=
  if x.way0.holds h then some false else if x.way1.holds h then some true else none

/-- The lookup at EVALUATE (R82): what the set becomes, and the entry handed on at a hit. -/
def lookupSet (x : HistSet) (h : BitVec 16) (now : BitVec 32) : HistSet × Option Way :=
  match x.findWay h with
  | none => (x, none)
  | some one =>
    let w := x.way one
    if w.stale now then (x.write one { w with valid := false }, none) else (x.use one, some w)

/-- The way a note uses (R85, R86): the one that holds its hash, else the first invalid one, else the one the LRU bit
names. -/
def HistSet.noteWay (x : HistSet) (h : BitVec 16) : Bool :=
  match x.findWay h with
  | some one => one
  | none => if !x.way0.valid then false else if !x.way1.valid then true else x.lru1

/-- invalid_count after a note (R85). -/
def countAfter (n : Note) (count : Nat) : Nat :=
  match n.disposition with
  | .returned => if n.invalid then min 2 (count + 1) else count
  | .stamped => 0
  | _ => count

/-- A note's update of its set (R85, R86). A newly allocated way starts from count 0. -/
def noteSet (x : HistSet) (n : Note) (now : BitVec 32) : HistSet :=
  let one := x.noteWay n.hash
  let count := if (x.findWay n.hash).isSome then (x.way one).invalidCount else 0
  (x.write one { valid := true, hash := n.hash, disposition := n.disposition, invalidCount := countAfter n count,
                 stamp := now }).use one

/-- The history after a note; MISSING leaves it (R84, R85). -/
def noteHistory (hist : List HistSet) (n : Note) (now : BitVec 32) : List HistSet :=
  if n.disposition == .missing then hist
  else hist.set (setIndex n.hash) (noteSet (historySet hist n.hash) n now)

/-- Take a note (R84). -/
def takeNote (n : Note) (s : State) : State := s.withHistory (noteHistory s.history n s.lif.roundCounter)

end Sys2Proof.Machine
end

