-- ==== Sys2Proof/Machine/Intake.lean ====
section
/-! DEFINITION. The intake unit: ports, entries, evaluation, queues and channels (file 04). -/

namespace Sys2Proof.Machine

/-! ### State and channels -/

/-- The infeed queue holds 8 dockets, or the direct fault stands (R55). -/
def Ieu.blocked (u : Ieu) : Bool := Config.infeedCap ≤ u.infeed.length || u.directFault

/-- The unit would enter READY: INFEED_FULL instead while it is blocked (R55). -/
def Ieu.toReady (u : Ieu) : Ieu := { u with state := if u.blocked then .infeedFull else .ready }

/-- The moves between READY and INFEED_FULL (R55): INFEED_FULL is left when the unit is no longer blocked, READY when
the direct fault is raised. -/
def Ieu.refresh (u : Ieu) : Ieu :=
  match u.state with
  | .infeedFull => if u.blocked then u else { u with state := .ready }
  | .ready => if u.directFault then { u with state := .infeedFull } else u
  | _ => u

/-- A call on a channel: a pulse, or an owed one in ESTOP (R72). -/
def Ieu.call (u : Ieu) (p : Pulse) : Channel := if u.state == .estop then .owed p else .pulsing p

/-- A pulse is in progress or owed on a channel (R72). -/
def Channel.carries (c : Channel) (p : Pulse) : Bool := c == .pulsing p || c == .owed p

/-- A stop ends a pulse and its channel owes it (R56, R72). -/
def Channel.stopped (c : Channel) : Channel := match c with | .pulsing p => .owed p | x => x

/-- The end of a stop starts an owed pulse in full (R72). -/
def Channel.resumed (c : Channel) : Channel := match c with | .owed p => .pulsing p | x => x

/-- The end of a pulse (R72). -/
def Channel.ended (c : Channel) : Channel := match c with | .pulsing _ => .idle | x => x

/-- PULSE_END (R72). -/
def execPulseEnd (c : ChannelName) (s : State) : Out :=
  if s.ieuActs then
    match c with
    | .stage => .next (s.withIeu { s.ieu with stage := s.ieu.stage.ended })
    | .infeed => .next (s.withIeu { s.ieu with infeedCh := s.ieu.infeedCh.ended })
    | .bypass => .next (s.withIeu { s.ieu with bypass := s.ieu.bypass.ended })
  else .next s

/-- INFEED_CLEAR reads active: PURGE is left (R55). -/
def execInfeedClear (s : State) : Out :=
  if s.ieuActs && s.ieu.state == .purge then
    .next (s.withIeu (if s.ieu.period.isSome then s.ieu.toReady else { s.ieu with state := .noPeriod }))
  else .next s

/-- The stop at INSPECT (R56): pulses owed, the offer withdrawn, the state remembered. -/
def intakeStop (s : State) : State :=
  let u := s.ieu
  withdrawMsg .docketOffer (s.withIeu { u with
    state := .estop, left := u.state, stage := u.stage.stopped, infeedCh := u.infeedCh.stopped,
    bypass := u.bypass.stopped })

/-- The end of the stop at INSPECT (R56): the state left, with the entry conditions of R55, then the owed pulses. -/
def intakeResume (s : State) : State :=
  let u := { s.ieu with state := s.ieu.left }
  let v := if u.state == .ready then u.toReady else u.refresh
  s.withIeu { v with stage := v.stage.resumed, infeedCh := v.infeedCh.resumed, bypass := v.bypass.resumed }

/-! ### Port B -/

/-- A line for port B; it is discarded when 4 wait (R60). A line being sent counts among them until TERMINAL_REPLY_SENT
(DESIGN CHOICE, log 36). -/
def reply (r : Reply) (s : State) : State :=
  if s.ports.waiting.length < Config.replyCap then
    s.withPorts { s.ports with waiting := s.ports.waiting ++ [r] }
  else s

/-- TERMINAL_REPLY_SENT (R60). -/
def execTerminalReplySent (s : State) : Out :=
  match s.role, s.ports.waiting with
  | some .inspect, r :: rest =>
    .next (s.withPorts { s.ports with waiting := rest, trmSent := some (sentLine (replyText r)) })
  | _, _ => .next s

/-- A terminal line handed to the unit at a running INSPECT station; an empty line, or one partly received before the
release, is thrown away (R57). -/
def terminalLine (l : PortLine) (f : LineBuffer → State → State) (s : State) : State :=
  if s.role == some .inspect then
    if lineHanded l then
      let b := assembleLine Config.portBCap l
      f b (s.withPorts { s.ports with lineB := b })
    else s.withPorts { s.ports with lineB := {} }
  else s

/-- The checks of R60 before the entry's own: BUSY in ESTOP and CONFLICT, then the form. -/
def entryChecks (form : List Text → Bool) (act : List Text → State → State) (b : LineBuffer) (s : State) : State :=
  if s.lif.roleConflict || s.ieu.state == .estop then reply .busy s
  else if b.badAt.isSome || !form (entryArgs b) then reply .errSyntax s
  else act (entryArgs b) s

/-- The column of Table 4-4 for MASS, FIND and CLOSE: the refusal, if the state does not take the entry. -/
def Ieu.refuses (u : Ieu) : Option Reply :=
  if u.state != .inspecting then some .errState else if u.closePending then some .busy else none

/-- PERIOD (R61). -/
def takePeriod (args : List Text) (s : State) : State :=
  let p := periodOf (args.getD 0 [])
  if p.inRange then
    let u := { s.ieu with period := some p }
    reply .ok (s.withIeu (if u.state == .noPeriod then u.toReady else u))
  else reply .errRange s

/-- PERIOD (R61). -/
def execPeriod (l : PortLine) (s : State) : Out :=
  .next (terminalLine l (entryChecks (fun a => a.length == 1 && periodForm (a.getD 0 [])) takePeriod) s)

/-- MASS (R62). -/
def takeMass (args : List Text) (s : State) : State :=
  match s.ieu.refuses with
  | some r => reply r s
  | none =>
    let m := max 1 (min 30000 (decValue (args.getD 0 [])))
    reply (.okMass m) (s.withIeu { s.ieu with work := s.ieu.work.map fun d => { d with mass := some m } })

/-- MASS (R62). -/
def execMass (l : PortLine) (s : State) : Out :=
  .next (terminalLine l (entryChecks (fun a => a.length == 1 && numberForm (a.getD 0 [])) takeMass) s)

/-- The severity stored for a finding (R63). -/
def storedSeverity (c : FindingCode) (v : Severity) : Severity := if c.alwaysCondemn then .condemn else v

/-- Findings of the docket in work. -/
def Ieu.findings (u : Ieu) : List Finding := match u.work with | some d => d.findings | none => []

/-- FIND (R63). -/
def takeFind (args : List Text) (s : State) : State :=
  match s.ieu.refuses with
  | some r => reply r s
  | none =>
    match FindingCode.ofName (args.getD 0 []), severityOf (args.getD 1 []) with
    | none, _ => reply .errCode s
    | some c, v =>
      if 6 ≤ s.ieu.findings.length then reply .full s
      else
        let f : Finding := { code := c, severity := v.map (storedSeverity c) }
        reply .ok (s.withIeu { s.ieu with work := s.ieu.work.map fun d => { d with findings := d.findings ++ [f] } })

/-- FIND (R63). -/
def execFind (l : PortLine) (s : State) : Out :=
  .next (terminalLine l
    (entryChecks (fun a => a.length == 2 && (severityOf (a.getD 1 [])).isSome) takeFind) s)

/-- CANCEL (R64). -/
def takeCancel (_ : List Text) (s : State) : State :=
  if s.ieu.state == .inspecting then
    let s1 := if s.ieu.closePending then reply .errCancelled s else s
    reply .ok (s1.withIeu ({ s1.ieu with work := none, closePending := false }).toReady)
  else reply .errState s

/-- CANCEL (R64). -/
def execCancel (l : PortLine) (s : State) : Out :=
  .next (terminalLine l (entryChecks (fun a => a.isEmpty) takeCancel) s)

/-- CLEAR (R65). -/
def takeClear (_ : List Text) (s : State) : State :=
  if s.ieu.directFault then reply .ok (s.withIeu ({ s.ieu with directFault := false }).refresh)
  else reply .errNoFault s

/-- CLEAR_ENTRY (R65). -/
def execClearEntry (l : PortLine) (s : State) : Out :=
  .next (terminalLine l (entryChecks (fun a => a.isEmpty) takeClear) s)

/-- UNKNOWN_KEYWORD (R60): the form check fails. -/
def execUnknownKeyword (l : PortLine) (s : State) : Out :=
  .next (terminalLine l (entryChecks (fun _ => false) fun _ t => t) s)

/-! ### Port A -/

/-- A reader line taken or rejected in READY (R58, R59). -/
def takeReader (b : LineBuffer) (s : State) : State :=
  match readerFault b with
  | some n => reply (.idRejected n) s
  | none =>
    let d := readerDocket b
    reply (.okId d.mfr d.serial) (s.withIeu { s.ieu with work := some d, state := .inspecting })

/-- READER_LINE (R57 to R59): BUSY in every state but READY. -/
def readerRead (l : PortLine) (s : State) : State :=
  if lineHanded l then
    let b := assembleLine Config.portACap l
    let s1 := s.withPorts { s.ports with lineA := b }
    if s1.ieuActs && s1.ieu.state == .ready then takeReader b s1 else reply .busy s1
  else s.withPorts { s.ports with lineA := {} }

/-- READER_LINE (R59). -/
def execReaderLine (l : PortLine) (s : State) : Out :=
  if s.role == some .inspect then .next (readerRead l s) else .next s

/-! ### Evaluation -/

/-- The class entry of a docket (R67). -/
def classOf (p : Params) (d : Docket) : ClassEntry := p.classes.getD (d.cls - 1) {}

/-- Steps 1 and 2 of EVALUATE: the period, and what the class entry copies or removes (R66, R67). -/
def classStep (per : Period) (c : ClassEntry) (d : Docket) : Docket :=
  let d1 := { d with period := some per }
  if c.defined then
    { d1 with ratioLimit := some c.ratioLimit, holdTime := some c.holdTime, ree := if c.reeApplies then d.ree else none }
  else d1

/-- mass_loss (R68). -/
def massLossOf (tare mass : Nat) : Nat := if mass < tare then (tare - mass) * 10000 / tare else 0

/-- The one year of the span Yc − 90 to Yc + 9 with two given last digits (R69). -/
def expandYear (yc yy : Nat) : Nat := (yc - 90) + (yy + 100 - (yc - 90) % 100) % 100

/-- elapsed months since the last test (R69). -/
def elapsedMonths (per : Period) (d : Docket) : Int :=
  ((per.year * 12 + per.month : Nat) : Int) - ((expandYear per.year d.lastYear * 12 + d.lastMonth : Nat) : Int)

/-- BAD_DATE (R69). -/
def badDate (per : Period) (d : Docket) : Bool :=
  let y := expandYear per.year d.lastYear
  let ym := expandYear per.year d.mfgYear
  elapsedMonths per d < 0 || y < ym || per.year < ym

/-- NOT_DUE (R69). -/
def notDue (p : Params) (per : Period) (c : ClassEntry) (d : Docket) : Bool :=
  !badDate per d && c.defined && elapsedMonths per d < ((c.intervalYears * 12 - p.earlyWindow : Nat) : Int)

/-- The causes that apply at EVALUATE, in the order of Table 4-5, each with its intent (R70). -/
def intentRows (p : Params) (per : Period) (c : ClassEntry) (lot : Option LotEntry) (hit : Option Way)
    (covered : Bool) (mass : Nat) (d : Docket) : List (Bool × Intent × Cause) :=
  [(d.findings.any (fun f => f.severity == some .condemn), .scrap, .findingCondemn),
   ((match lot with | some e => e.condemn | none => false), .scrap, .lotCondemn),
   (c.defined && c.massLossLimit < massLossOf d.tare mass, .scrap, .massLoss),
   (p.residualLimit < mass - d.tare, .ret, .notEmpty),
   ((match lot with | some e => !e.condemn | none => false), .hold, .lotHold),
   ((match hit with | some w => w.disposition == .scrapped | none => false), .hold, .historyScrapped),
   (badDate per d, .hold, .badDate),
   (!c.defined, .hold, .unknownClass),
   (notDue p per c d, .passThrough, .notDue),
   (!covered, .hold, .noHead)]

/-- The intent and its reason: the first applying cause of the table; TEST when none applies (R70). -/
def decideIntent (rows : List (Bool × Intent × Cause)) : Intent × Option Cause :=
  match rows.find? (·.1) with
  | some (_, i, c) => (i, some c)
  | none => (.test, none)

/-- The docket EVALUATE leaves (R66); coverage is read from the table as the last complete round left it. -/
def evaluatedDocket (s : State) (per : Period) (mass : Nat) (hit : Option Way) (d : Docket) : Docket :=
  let c := classOf s.params d
  let d1 := classStep per c d
  let lot := lotMatch s.params.lots d1
  let decision := decideIntent (intentRows s.params per c (lot.map (·.2)) hit (s.coveredSettled d1) mass d1)
  { d1 with massLoss := some (massLossOf d1.tare mass),
            retest := (match hit with | some w => 1 ≤ w.invalidCount | none => false),
            lotEntry := lot.map (·.1), intent := some decision.1, reason := decision.2 }

/-- EVALUATE, with its history lookup (R66, R82, R83). -/
def evaluate (per : Period) (mass : Nat) (d : Docket) (s : State) : State :=
  let look := lookupSet (historySet s.history d.hash) d.hash s.lif.roundCounter
  let s1 := s.withHistory (s.history.set (setIndex d.hash) look.1)
  s1.withIeu { s1.ieu with work := some (evaluatedDocket s per mass look.2 d), closePending := true }

/-- The evaluated docket may join its queue (R71). -/
def Ieu.canJoin (u : Ieu) (d : Docket) : Bool :=
  u.closePending && u.state == .inspecting && u.stage == .idle &&
  (if d.intent == some .test then decide (u.infeed.length < Config.infeedCap)
   else decide (u.direct.length < Config.directCap) && !u.infeedCh.carries .infeedDivert)

/-- The tag counter advances, from 65,535 to 1 (R4). -/
def nextTag (n : Nat) : Nat := if n == 65535 then 1 else n + 1

/-- The docket joins: tag, queue, stage pulse, reply, and the unit leaves INSPECTING (R4, R71). -/
def joinDocket (d : Docket) (s : State) : State :=
  let u := s.ieu
  let d1 := { d with tag := some u.tagCounter }
  let u1 := { u with tagCounter := nextTag u.tagCounter, work := none, closePending := false }
  let u2 := if d.intent == some .test then { u1 with infeed := u.infeed ++ [d1], stage := u.call .stageIn }
    else { u1 with direct := u.direct ++ [d1], stage := u.call .stageBy }
  reply (.okJoin u.tagCounter (d.intent.getD .test) d.reason) (s.withIeu u2.toReady)

/-- A pending CLOSE joins if it can (R71). -/
def tryJoin (s : State) : State :=
  match s.ieu.work with
  | some d => if s.ieu.canJoin d then joinDocket d s else s
  | none => s

/-- CLOSE (R66): ERR NOMASS without a mass; else EVALUATE, and the docket joins at once if it can. In ADDRESS_CONFLICT no
evaluation runs and the history is not read (R81): the entry is answered BUSY and changes nothing (log 37). -/
def takeClose (_ : List Text) (s : State) : State :=
  match s.ieu.refuses with
  | some r => reply r s
  | none =>
    match s.ieu.work, s.ieu.period with
    | some d, some per =>
      match d.mass with
      | some m => if s.lif.state == .addressConflict then reply .busy s else tryJoin (evaluate per m d s)
      | none => reply .errNoMass s
    | _, _ => s

/-- CLOSE (R66). -/
def execClose (l : PortLine) (s : State) : Out :=
  .next (terminalLine l (entryChecks (fun a => a.isEmpty) takeClose) s)

/-- DOCKET_JOIN (R71). -/
def execDocketJoin (s : State) : Out := if s.ieuActs then .next (tryJoin s) else .next s

/-! ### Offers and direct sends -/

/-- The front docket of the infeed queue leaves it: the stall count returns to 0 (R51), the unit moves on (R55). -/
def Ieu.popInfeed (u : Ieu) : Ieu := ({ u with infeed := u.infeed.tail, stall := 0 }).refresh

/-- A valid accept of an offer by head `a` (R51, R73). -/
def offerAccepted (a : Addr) (s : State) : State :=
  let u := s.ieu.popInfeed
  s.withIeu { u with route := a, infeedCh := u.call .infeedRelease }

/-- A valid accept of a direct docket (R74). -/
def directAccepted (s : State) : State :=
  s.withIeu { s.ieu with direct := s.ieu.direct.tail, bypass := s.ieu.call .bypassRelease }

/-- A direct docket is dropped: the direct fault is raised (R75). -/
def directDropped (s : State) : State := s.withIeu ({ s.ieu with directFault := true }).refresh

/-- The NO_HEAD move can be made (R73). -/
def Ieu.canMove (u : Ieu) : Bool :=
  u.direct.length < Config.directCap && u.infeedCh == .idle && !u.stage.carries .stageBy && u.state != .estop

/-- The NO_HEAD move of the front docket (R6, R73). -/
def noHeadMove (d : Docket) (s : State) : State :=
  let s1 := withdrawMsg .docketOffer s
  let u := s1.ieu
  let moved := { d with intent := some .hold, reason := some .noHead }
  s1.withIeu { u.popInfeed with direct := u.direct ++ [moved], infeedCh := .pulsing .infeedDivert }

/-- An offer may be queued: none is, a place is free, the line is not silent, the infeed channel is idle, no stop
(R51, R73). -/
def State.mayOffer (s : State) : Bool :=
  !s.hasMsg .docketOffer && s.txRoom && !s.lif.lineSilent && s.ieu.infeedCh == .idle && s.ieu.state != .estop

/-- The infeed front at the end of a complete round (R51, R73). -/
def offerDecision (s : State) : State :=
  match s.ieu.infeed with
  | [] => s
  | d :: _ =>
    if s.covered d then
      if (s.chosenHead d).isNone then withdrawMsg .docketOffer s
      else if s.mayOffer then
        queueMsg { kind := .docketOffer, dest := 0x10, body := docketBody .docketOffer d } s
      else s
    else if s.ieu.canMove then noHeadMove d s
    else withdrawMsg .docketOffer s

/-- The lowest address with an intact DISPOSE post in READY or CALLING (R74). -/
def State.disposeAddr (s : State) : Option Addr :=
  allAddrs.find? fun a => (s.entry a).view.shows .dispose [1, 2]

/-- A direct send may be queued (R74). -/
def State.mayDirect (s : State) : Bool :=
  !s.hasMsg .docketDirect && s.txRoom && !s.lif.lineSilent && s.ieu.bypass == .idle && !s.ieu.directFault &&
  s.ieu.state != .estop

/-- The direct front at the end of a complete round (R74). -/
def directDecision (s : State) : State :=
  match s.ieu.direct, s.disposeAddr with
  | d :: _, some a =>
    if s.mayDirect then
      queueMsg { kind := .docketDirect, dest := 0#4 ++ a, body := docketBody .docketDirect d } s
    else s
  | _, _ => s

/-- The outputs of INSPECT in ROLE_CONFLICT: every channel at its reset state (R38, R72). That a pulse that runs or is
owed is dropped with its output is the model's choice (DESIGN CHOICE, log 44). -/
def intakeConflict (s : State) : State :=
  s.withIeu { s.ieu with stage := .idle, infeedCh := .idle, bypass := .idle, route := 0 }

end Sys2Proof.Machine
end

