-- ==== Sys2Proof/Machine/Measure.lean ====
section
/-! DEFINITION. The measurement unit's arithmetic: conversions, limits, expansion and verdict (file 08). -/

namespace Sys2Proof.Machine

/-- A code at a rail (R125). -/
def atRail (c : BitVec 16) : Bool := 65520 ≤ c.toNat || c.toNat ≤ 15

/-- A pressure code in kPa (R126). -/
def convertPressure (p : Params) (c : BitVec 16) : Nat :=
  if p.pOff < c.toNat then roundDivNat ((c.toNat - p.pOff) * p.pGain) 4096 else 0

/-- A temperature code in 0.01 °C (R127). -/
def convertTemp (p : Params) (c : BitVec 16) : Int :=
  roundDiv (((c.toNat : Int) - (p.tOff : Int)) * (p.tGain : Int)) 4096

/-- The limits of the ramp and the hold (R134). -/
def pressureLimits (p : Params) (tp : Nat) : Limits :=
  { top := tp + tp * p.bandPm / 1000, cond := tp + tp * p.condPm / 1000, low := tp - tp * p.dropPm / 1000 }

/-- The volume of a level sum (R138). -/
def volume (p : Params) (s0 s : Nat) : Int := roundDiv (((s : Int) - (s0 : Int)) * (p.gB : Int)) 16384

/-- The correction of a temperature (R138). -/
def correction (p : Params) (t0 t : Nat) : Int := roundDiv ((p.cT : Int) * ((t : Int) - (t0 : Int))) 256

/-- A test part with its verdict and cause. -/
def TestPart.judged (t : TestPart) (v : Verdict) (c : Option Cause) : TestPart := { t with verdict := v, cause := c }

/-- The arithmetic from the total and the raw permanent expansion (R139). -/
def expansion (p : Params) (d : Docket) (t : TestPart) (et raw : Int) : TestPart :=
  let t1 := { t with et := some et }
  if et < p.eTMin then t1.judged .invalid (some .noExpansion)
  else if raw < -(p.nUnder : Int) then t1.judged .invalid (some .negativePermanent)
  else
    let ep : Int := if raw < 0 then 0 else raw
    let t2 := { t1 with ep := some ep }
    if et < ep then t2.judged .invalid (some .permExceedsTotal)
    else
      let ratio := ep.natAbs * 10000 / et.natAbs
      let t3 := { t2 with ratio := some ratio, ee := some (et - ep) }
      if d.ratioLimit.getD 0 < ratio then t3.judged .condemn (some .expansionRatio)
      else if (match d.ree with | some r => decide ((r : Int) < et - ep) | none => false) then
        t3.judged .condemn (some .elasticOverRee)
      else t3.judged .pass none

/-- The arithmetic of a test, from its six readings (R138, R139). -/
def arithmetic (p : Params) (d : Docket) (t : TestPart) : TestPart :=
  match t.s0, t.st, t.sp, t.t0, t.tt, t.tp with
  | some s0, some st, some sp, some t0, some tt, some tp =>
    expansion p d t (volume p s0 st - correction p t0 tt) (volume p s0 sp - correction p t0 tp)
  | _, _, _, _, _, _ => t

/-- The repeat rule (R141). -/
def repeatRule (retest : Bool) (t : TestPart) : TestPart :=
  match t.verdict, t.cause with
  | .invalid, some c => if retest && c.inRepeatSet then t.judged .condemn (some .repeatInvalid) else t
  | _, _ => t

/-- The verdict assembly (R140). -/
def assembleVerdict (p : Params) (d : Docket) (t : TestPart) : TestPart :=
  if t.conditions.contains .overpressure then t.judged .condemn (some .overpressure)
  else
    match t.conditions with
    | c :: _ => repeatRule d.retest (t.judged .invalid (some c))
    | [] => repeatRule d.retest (arithmetic p d t)

/-- A condition code entered in the list, with the expansion fields it removes (R9). -/
def TestPart.append (t : TestPart) (c : Cause) : TestPart :=
  if t.conditions.length < 3 && !t.conditions.contains c then
    let t1 := { t with conditions := t.conditions ++ [c] }
    if t.et.isSome then
      { t1 with et := none, ep := none, ee := none, ratio := none, verdict := .invalid, cause := some c }
    else t1
  else t

/-- Change the test part of a docket. -/
def Docket.onTest (f : TestPart → TestPart) (d : Docket) : Docket := { d with test := d.test.map f }

/-- Change the test part of the docket in a head's slot. -/
def onTest (f : TestPart → TestPart) (s : State) : State :=
  s.withTsq { s.tsq with docket := s.tsq.docket.map (Docket.onTest f) }

/-- Assemble the verdict of the docket in the slot (R140). -/
def assembleSlot (s : State) : State :=
  s.withTsq { s.tsq with docket := s.tsq.docket.map fun d => d.onTest (assembleVerdict s.params d) }

/-- The window of a reading phase at its entry (R129). -/
def freshWindow (p : Params) : Window := { skip := p.settleSkip }

/-- hold_mean (R136). -/
def holdMean (m : Msu) : Option Nat :=
  if m.holdCount == 0 then none else some (min 65535 (roundDivNat m.holdSum m.holdCount))

/-- HOLDING is left: hold end stamp and hold_mean are entered, the hold sum and count are discarded (R8, R98, R136). -/
def leaveHolding (s : State) : State :=
  let s1 := onTest (fun t => { t with holdEnd := some s.roundStamp, holdMean := holdMean s.msu }) s
  s1.withMsu { s1.msu with holdSum := 0, holdCount := 0, holdExpired := false }

/-- The window in progress and the figures of its phase are discarded (R133). -/
def abandonPhase (s : State) : State := s.withMsu { s.msu with window := {} }

end Sys2Proof.Machine
end

