-- ==== Sys2Proof/Machine/Interlock.lean ====
section
/-! DEFINITION. Entering and leaving a head's states, latching conditions and taking responses (files 06, 09). -/

namespace Sys2Proof.Machine

/-! ### The reading of a tick -/

/-- The inputs read at a tick; an edge input that reads inactive is armed (R88). -/
def senseInputs (p : Pins) (s : State) : State :=
  let s1 := s.withInputs p
  s1.withIlk { s1.ilk with pswArmed := s.ilk.pswArmed || !p.psw, abortArmed := s.ilk.abortArmed || !p.abort,
                           clearArmed := s.ilk.clearArmed || !p.clear }

/-- The rail indications and the current pressure of a tick (R125, R126). -/
def readChannels (x : Sample) (s : State) : State :=
  s.withMsu { s.msu with
    levelRail := atRail x.level, pressRail := atRail x.press, tempRail := atRail x.temp,
    pressure := if atRail x.press then none else some (convertPressure s.params x.press) }

/-- The tick of an event: one taken ahead of the use of the tick's sample acts on what the head reads at that tick, and
leaves the tick open until SAMPLE_TICK (R88, R124; log 3). -/
def openTick (o : TickOrder) (s : State) : State :=
  match o with
  | .beforeSample p x =>
    let s1 := readChannels x (senseInputs p s)
    s1.withTsq { s1.tsq with tickOpen := true }
  | .afterSample => s

/-! ### Entry of states -/

/-- Enter a state with its phase timer from 0 (R91). -/
def enterPhase (h : HeadState) (s : State) : State :=
  s.withTsq { s.tsq with state := some h, phase := some s.newCounter }

/-- Enter OUT_OF_SERVICE: vents open, lid released, gate closed, the cause recorded (R109). -/
def enterOos (c : Cause) (s : State) : State :=
  let s1 := enterPhase .outOfService s
  s1.withTsq { s1.tsq with oosCause := some c, gateOpen := false, lidLock := false }

/-- The marked condition of highest priority (R109). -/
def State.lowestMark (s : State) : Option Cause :=
  [Cause.overpressure, .pressureSwitch, .sensorRange].find? fun c => s.ilk.marks.contains c

/-- Enter IDLE, or OUT_OF_SERVICE with ORPHAN when SEAT reads active, or with a standing mark (R92, R109, R152). In IDLE,
as in DONE, no cause of OUT_OF_SERVICE is recorded any more: the spec does not say (DESIGN CHOICE, log 39). -/
def enterIdle (s : State) : State :=
  if s.inputs.seat then enterOos .orphan s
  else
    match s.lowestMark with
    | some c => enterOos c s
    | none =>
      let s1 := enterPhase .idle s
      s1.withTsq { s1.tsq with idleAge := 0, oosCause := none, gateOpen := false, lidLock := false }

/-- The urgent flag of DONE at an entry: the verdict is not PASS, or a sticky mark stands (R163). -/
def State.doneIsUrgent (s : State) : Bool :=
  (match s.tsq.docket with
   | some { test := some t, .. } => t.verdict != .pass
   | _ => false) || !s.ilk.marks.isEmpty

/-- Enter DONE (R102, R163; the cause of OUT_OF_SERVICE: log 39). -/
def enterDone (s : State) : State :=
  let s1 := enterPhase .done s
  s1.withTsq { s1.tsq with doneAge := 0, doneUrgent := s.doneIsUrgent, oosCause := none, gateOpen := false,
                           lidLock := false }

/-- Enter a state in which LID_LOCK is on (Table 6-3). -/
def enterLocked (h : HeadState) (s : State) : State :=
  let s1 := enterPhase h s
  s1.withTsq { s1.tsq with lidLock := true }

/-- Enter DRAINING (R101). -/
def enterDraining (s : State) : State := enterLocked .draining s

/-- UNLOAD_GATE opens and the unload timer starts (R103, R108). -/
def openGate (s : State) : State := s.withTsq { s.tsq with gateOpen := true, phase := some s.newCounter }

/-- Enter UNLOADING; no phase timer runs until the accept of the return (R103). -/
def enterUnloading (s : State) : State :=
  s.withTsq { s.tsq with state := some .unloading, phase := none, doneUrgent := false, gateOpen := false,
                         lidLock := false }

/-! ### Conditions -/

/-- A test is under way (R106). -/
def State.testUnderWay (s : State) : Bool :=
  match s.tsq.state with
  | some .safe => s.tsq.safeFrom.isSome
  | some h => h.inTest
  | none => false

/-- The states a condition is active in (Table 9-1). -/
def Cause.activeIn (c : Cause) (h : HeadState) : Bool :=
  match c with
  | .estop => true
  | .overpressure => h == .ramping || h == .holding
  | .pressureSwitch => true
  | .sensorRange => h.fillingToDraining
  | .lidOpen => h.zeroingToSettling
  | .lineSilence => h == .ramping
  | .leakDrop => h == .holding
  | .overband => h == .holding
  | .rampTimeout => h == .ramping
  | .unsettled => h == .zeroing || h == .settling
  | .creep => h == .holding
  | .tempRange => h == .zeroing || h == .holding || h == .settling
  | .fillTimeout => h == .filling
  | .aborted => h.loadingToSettling
  | _ => false

/-- The conditions whose cause can arise in SAFE (R143). -/
def Cause.arisesInSafe (c : Cause) : Bool :=
  c == .estop || c == .pressureSwitch || c == .sensorRange || c == .lidOpen || c == .aborted

/-- A condition is active at the head (R143). -/
def State.condActive (s : State) (c : Cause) : Bool :=
  match s.tsq.state with
  | none => false
  | some .safe =>
    match s.tsq.safeFrom with
    | some h => c.arisesInSafe && c.activeIn h
    | none => c == .estop || c == .pressureSwitch
  | some h => c.activeIn h

/-- A condition is armed; those of PSW and ABORT are while their inputs are (R145). -/
def State.condArmed (s : State) (c : Cause) : Bool :=
  match c with
  | .pressureSwitch => s.ilk.pswArmed
  | .aborted => s.ilk.abortArmed
  | _ => !s.ilk.disarmed.contains c

/-- The four things that let a condition latch (R145). -/
def State.latches (s : State) (c : Cause) : Bool :=
  s.condActive c && s.condArmed c && !s.ilk.latched.contains c && s.ilk.inForce != some c

/-- Latch a condition: it is disarmed, and appended to the docket's list while a test is under way (R145, R146). -/
def latchOne (c : Cause) (s : State) : State :=
  if s.latches c then
    let s1 := s.withIlk { s.ilk with latched := s.ilk.latched ++ [c], disarmed := s.ilk.disarmed ++ [c] }
    if s.testUnderWay then onTest (·.append c) s1 else s1
  else s

/-- Latch several causes in their order. -/
def latchAll (cs : List Cause) (s : State) : State := cs.foldl (fun t c => latchOne c t) s

/-- The latched condition of highest priority (R147). -/
def State.topLatched (s : State) : Option Cause := Cause.all.find? fun c => s.ilk.latched.contains c

/-! ### SAFE -/

/-- Enter SAFE: the phase timer stops; during a test the window is abandoned and HOLDING's mean is entered (R106);
outside one the state is remembered and the gate closes (R108). In SAFE nothing changes. When RAMPING or HOLDING is
left at a tick ahead of its sample, that sample still counts toward peak_pressure, whatever else is taken ahead of it
(R135, R136, R154; log 10). A SAFE during a test has no return state
(DESIGN CHOICE, log 39). The stopped phase timer holds no count: R91 says only that it stops (DESIGN CHOICE, log 42). -/
def enterSafe (s : State) : State :=
  match s.tsq.state with
  | none => s
  | some .safe => s
  | some h =>
    if h.inTest then
      let s1 := if h == .holding then leaveHolding s else s
      let s2 := abandonPhase s1
      let s3 := s2.withAdm { s2.adm with waitAge := 0, urgent := false }
      s3.withTsq { s3.tsq with state := some .safe, phase := none, safeFrom := some h, returnState := none,
                               peakOwed := s3.tsq.peakOwed ||
                                 (s3.tsq.tickOpen && (h == .ramping || h == .holding)) }
    else
      s.withTsq { s.tsq with state := some .safe, phase := none, safeFrom := none, returnState := some h,
                             gateOpen := false, doneUrgent := false }

/-- Go back to the return state (R108). -/
def reenter (h : HeadState) (s : State) : State :=
  match h with
  | .idle => enterIdle s
  | .done => enterDone s
  | .unloading =>
    let s1 := enterUnloading s
    if s1.tsq.gateFlag then openGate s1 else s1
  | .outOfService => enterOos (s.tsq.oosCause.getD .orphan) s
  | _ => s

/-- Leave SAFE: during a test the verdict is assembled and the head drains, or waits in DONE when SEAT reads inactive
(R107); outside one it goes back (R108). The spec does not say whether the return state stands after that: the model
clears it (DESIGN CHOICE, log 39). -/
def leaveSafe (s : State) : State :=
  match s.tsq.safeFrom with
  | some _ =>
    let s1 := assembleSlot (s.withTsq { s.tsq with safeFrom := none })
    if s1.inputs.seat then enterDraining s1 else enterDone s1
  | none =>
    match s.tsq.returnState with
    | some h => reenter h (s.withTsq { s.tsq with returnState := none })
    | none => s

/-- The current pressure is available and below vent_done (R126, R148, R149). -/
def State.vented (s : State) : Bool :=
  match s.msu.pressure with
  | some p => p < s.params.ventDone
  | none => false

/-- Take the latched condition of highest priority, or leave SAFE when none is latched. Every VENT condition ranks
below every TRIP condition, so a VENT taken with the pressure down completes at once with every one behind it
(R149, R151). Such a VENT is never in force, and the response timer, which counts for a response in force only, keeps
the count it has, as it does after the last completion (DESIGN CHOICE, log 40). -/
def chooseNext (s : State) : State :=
  match s.topLatched with
  | none => leaveSafe (s.withIlk { s.ilk with inForce := none })
  | some c =>
    if c.isTrip || !s.vented then s.withIlk { s.ilk with inForce := some c, timer := s.newCounter }
    else leaveSafe (s.withIlk { s.ilk with inForce := none, latched := [] })

/-- Act on the latch after conditions have latched: take the top condition when no response is in force, or let it
pre-empt (R147, R150). -/
def respond (s : State) : State :=
  match s.topLatched with
  | none => s
  | some c =>
    match s.ilk.inForce with
    | none => chooseNext (enterSafe s)
    | some f => if c.code < f.code then chooseNext s else s

/-- Causes that arise in one event: latched in order, then acted on (R145 to R147). -/
def raise (cs : List Cause) (s : State) : State := respond (latchAll cs s)

/-- The response in force has completed at this tick (R148, R149). -/
def State.responseDone (s : State) : Bool :=
  let dwell := s.params.tripDwell * Config.ticksPerSecond ≤ s.ilk.timer.ticks
  match s.ilk.inForce with
  | none => false
  | some c =>
    if c.isTrip then dwell && (s.vented || s.msu.pressRail) && (c != .estop || !s.inputs.estop)
    else s.vented || (s.msu.pressRail && dwell)

/-- Complete the response in force: its condition leaves the latch, a sticky one leaves its mark, the next is chosen
(R149, R151, R152). -/
def completeResponse (s : State) : State :=
  match s.ilk.inForce with
  | none => s
  | some c =>
    let marks := if c.isSticky && !s.ilk.marks.contains c then s.ilk.marks ++ [c] else s.ilk.marks
    chooseNext (s.withIlk { s.ilk with latched := s.ilk.latched.filter (· != c), marks := marks, inForce := none })

end Sys2Proof.Machine
end

