-- ==== Sys2Proof/Machine/HeadEvents.lean ====
section
/-! DEFINITION. The events of a test head but for its sample and its messages (files 06, 07, 09). An event that the
head's state does not let happen changes nothing (log 1). -/

namespace Sys2Proof.Machine

/-- A level or edge input read as the event says (R88). -/
def withInput (f : Pins → Pins) (s : State) : State := s.withInputs (f s.inputs)

/-- Do something at a running head. -/
def atHead (f : State → State) (s : State) : State := if s.isHead then f s else s

/-- The head stands in a state. -/
def State.headIs (s : State) (h : HeadState) : Bool := s.tsq.state == some h

/-- The phase timer expires at the tick of the event (R91). -/
def State.phaseExpires (s : State) (o : TickOrder) (len : Nat) : Bool :=
  match s.tsq.phase with
  | some c => c.expires o len
  | none => false

/-- A timed length of seconds in ticks (R91). -/
def ticks (seconds : Nat) : Nat := seconds * Config.ticksPerSecond

/-- ESTOP reads active (R145). -/
def estopRead (o : TickOrder) (s : State) : State :=
  raise [.estop] (withInput (fun p => { p with estop := true }) (openTick o s))

/-- ESTOP at a head (R145, R147, R150). -/
def execEstop (o : TickOrder) (s : State) : Out := .next (atHead (estopRead o) s)

/-- A PSW edge: taken while the input is armed, it disarms the input whether or not the condition latches (R88,
R145). -/
def pswEdge (o : TickOrder) (s : State) : State :=
  if s.ilk.pswArmed then
    let s1 := latchOne .pressureSwitch (withInput (fun p => { p with psw := true }) (openTick o s))
    respond (s1.withIlk { s1.ilk with pswArmed := false })
  else s

/-- PSW (R145). -/
def execPsw (o : TickOrder) (s : State) : Out := .next (atHead (pswEdge o) s)

/-- An ABORT edge, as a PSW edge. -/
def abortEdge (o : TickOrder) (s : State) : State :=
  if s.ilk.abortArmed then
    let s1 := latchOne .aborted (withInput (fun p => { p with abort := true }) (openTick o s))
    respond (s1.withIlk { s1.ilk with abortArmed := false })
  else s

/-- ABORT (R145). -/
def execAbort (o : TickOrder) (s : State) : Out := .next (atHead (abortEdge o) s)

/-- LID_CLOSED reads inactive. -/
def lidRead (o : TickOrder) (s : State) : State :=
  raise [.lidOpen] (withInput (fun p => { p with lidClosed := false }) (openTick o s))

/-- LID_OPEN (R145). -/
def execLidOpen (o : TickOrder) (s : State) : Out := .next (atHead (lidRead o) s)

/-- SEAT reads active: LOADING goes on to FILLING (R93), IDLE to OUT_OF_SERVICE (R92). -/
def seatRead (o : TickOrder) (s : State) : State :=
  let s1 := withInput (fun p => { p with seat := true }) (openTick o s)
  if s.headIs .loading then enterPhase .filling s1
  else if s.headIs .idle then enterOos .orphan s1
  else s1

/-- SEAT_ACTIVE (R92, R93). -/
def execSeatActive (o : TickOrder) (s : State) : Out := .next (atHead (seatRead o) s)

/-- LID_CLOSED reads active: in FILLING the lid is locked (R94). -/
def lidClosedRead (o : TickOrder) (s : State) : State :=
  let s1 := withInput (fun p => { p with lidClosed := true }) (openTick o s)
  if s.headIs .filling then s1.withTsq { s1.tsq with lidLock := true } else s1

/-- LID_CLOSED (R94). -/
def execLidClosed (o : TickOrder) (s : State) : Out := .next (atHead (lidClosedRead o) s)

/-- Enter a reading phase with a fresh window (R129). -/
def enterReading (h : HeadState) (s : State) : State :=
  let s1 := enterLocked h s
  s1.withMsu { s1.msu with window := freshWindow s1.params }

/-- JACKET_FULL and BLEED_WET read active: in FILLING the fill is complete (R94). -/
def fillRead (o : TickOrder) (s : State) : State :=
  let s1 := withInput (fun p => { p with jacketFull := true, bleedWet := true }) (openTick o s)
  if s.headIs .filling then enterReading .zeroing s1 else s1

/-- FILL_COMPLETE (R94). -/
def execFillComplete (o : TickOrder) (s : State) : Out := .next (atHead (fillRead o) s)

/-- The test part of a load timeout (R8, R93). -/
def TestPart.loadTimeout (t : TestPart) : TestPart :=
  { t with noCylinder := true, verdict := .notTested, cause := some .loadTimeout }

/-- The load timer expires in LOADING (R93). -/
def loadExpiry (o : TickOrder) (s : State) : State :=
  if s.headIs .loading && s.phaseExpires o (ticks s.params.loadTime) then
    enterDone (onTest TestPart.loadTimeout (openTick o s))
  else s

/-- LOAD_TIMEOUT (R93). -/
def execLoadTimeout (o : TickOrder) (s : State) : Out := .next (atHead (loadExpiry o) s)

/-- The expiry of a timer is the cause of condition `c`, taken or not. Ahead of the sample of its tick the cause is
present until that sample closes the tick (R91, R145; log 3). -/
def expiryCause (o : TickOrder) (c : Cause) (s : State) : State :=
  let s1 := openTick o s
  raise [c] (match o with
    | .beforeSample _ _ => s1.withIlk { s1.ilk with expired := some c }
    | .afterSample => s1)

/-- The fill timer expires in FILLING (R94). -/
def fillExpiry (o : TickOrder) (s : State) : State :=
  if s.headIs .filling && s.phaseExpires o (ticks s.params.fillTime) then expiryCause o .fillTimeout s else s

/-- FILL_TIMEOUT (R94). -/
def execFillTimeout (o : TickOrder) (s : State) : Out := .next (atHead (fillExpiry o) s)

/-- The ramp timer expires in RAMPING (R97). -/
def rampExpiry (o : TickOrder) (s : State) : State :=
  if s.headIs .ramping && s.phaseExpires o (ticks s.params.rampTime) then expiryCause o .rampTimeout s else s

/-- RAMP_TIMEOUT (R97). -/
def execRampTimeout (o : TickOrder) (s : State) : Out := .next (atHead (rampExpiry o) s)

/-- The hold_time of the docket in the slot. -/
def State.holdTime (s : State) : Nat :=
  match s.tsq.docket with
  | some d => d.holdTime.getD 0
  | none => 0

/-- The hold timer expires in HOLDING: windows may begin from this tick (R98, R129). -/
def holdExpiry (o : TickOrder) (s : State) : State :=
  if s.headIs .holding && s.phaseExpires o (ticks s.holdTime) then
    let s1 := openTick o s
    s1.withMsu { s1.msu with holdExpired := true }
  else s

/-- HOLD_TIMER_EXPIRY (R98). -/
def execHoldTimerExpiry (o : TickOrder) (s : State) : Out := .next (atHead (holdExpiry o) s)

/-- The drain timer expires in DRAINING (R101). -/
def drainExpiry (o : TickOrder) (s : State) : State :=
  if s.headIs .draining && s.phaseExpires o (ticks s.params.drainTime) then enterDone (openTick o s) else s

/-- DRAIN_TIMER_EXPIRY (R101). -/
def execDrainTimerExpiry (o : TickOrder) (s : State) : Out := .next (atHead (drainExpiry o) s)

/-- The WAIT_RAMP phase timer exceeds ramp_patience at this tick (R117). The flag comes on while the line is silent too:
R117 counts sample ticks whether or not rounds are complete, where R120 has a head wait there with its flag unchanged
(DESIGN CHOICE, log 43). -/
def patienceExpiry (o : TickOrder) (s : State) : State :=
  if s.headIs .waitRamp && s.phaseExpires o (ticks s.params.rampPatience + 1) then
    let s1 := openTick o s
    s1.withAdm { s1.adm with urgent := true }
  else s

/-- URGENT_FLAG_SET (R117). -/
def execUrgentFlagSet (o : TickOrder) (s : State) : Out := .next (atHead (patienceExpiry o) s)

/-- The gate closes; caller and gate flag are cleared (R104). -/
def endUnload (s : State) : State :=
  s.withTsq { s.tsq with gateOpen := false, caller := none, gateFlag := false }

/-- SEAT reads inactive and UNLOAD_CLEAR active with the gate open: the unload is complete (R104, R152). -/
def unloadRead (o : TickOrder) (s : State) : State :=
  let s1 := withInput (fun p => { p with seat := false, unloadClear := true }) (openTick o s)
  if s.headIs .unloading && s.tsq.gateOpen then enterIdle (endUnload s1) else s1

/-- UNLOAD_COMPLETE (R104). -/
def execUnloadComplete (o : TickOrder) (s : State) : Out := .next (atHead (unloadRead o) s)

/-- The unload timer expires before completion (R104). -/
def unloadExpiry (o : TickOrder) (s : State) : State :=
  if s.headIs .unloading && s.tsq.gateOpen && s.phaseExpires o (ticks s.params.unloadTime) then
    enterOos .unloadTimeout (openTick o s)
  else s

/-- UNLOAD_TIMEOUT (R104). -/
def execUnloadTimeout (o : TickOrder) (s : State) : Out := .next (atHead (unloadExpiry o) s)

/-- A sticky mark's cause is removed (R153). -/
def State.markRemoved (s : State) (c : Cause) : Bool :=
  match c with
  | .overpressure => s.vented
  | .pressureSwitch => !s.inputs.psw
  | .sensorRange => !s.msu.levelRail && !s.msu.pressRail && !s.msu.tempRail
  | _ => false

/-- The recorded cause of OUT_OF_SERVICE is removed, the marks having been cleared (R110). -/
def State.oosRemoved (s : State) : Bool :=
  match s.tsq.oosCause with
  | some .orphan => !s.inputs.seat
  | some .handoffFailed => true
  | some .unloadTimeout => !s.inputs.seat && s.inputs.unloadClear
  | _ => s.ilk.marks.isEmpty

/-- A CLEAR edge: it disarms the input; in OUT_OF_SERVICE it clears the marks whose cause is removed, and the head
leaves if its own cause is (R110, R153). -/
def clearTaken (o : TickOrder) (s : State) : State :=
  if s.ilk.clearArmed then
    let s1 := withInput (fun p => { p with clear := true }) (openTick o s)
    let s2 := s1.withIlk { s1.ilk with clearArmed := false }
    if s.headIs .outOfService then
      let s3 := s2.withIlk { s2.ilk with marks := s2.ilk.marks.filter fun c => !s2.markRemoved c }
      if s3.oosRemoved then (if s3.tsq.docket.isSome then enterDone s3 else enterIdle s3) else s3
    else s2
  else s

/-- CLEAR_EDGE (R110). -/
def execClearEdge (o : TickOrder) (s : State) : Out := .next (atHead (clearTaken o) s)

/-- RESPONSE_COMPLETE (R148, R149). -/
def execResponseComplete (s : State) : Out :=
  .next (atHead (fun t => if t.responseDone then completeResponse t else t) s)

end Sys2Proof.Machine
end

