-- ==== Sys2Proof/Machine/Sample.lean ====
section
/-! DEFINITION. The sample tick (R88, R124 to R137), in the stages of log 9: inputs and counters, rails and
conversion, the progress of ramp, hold and vent, the reports, the window. -/

namespace Sys2Proof.Machine

/-- The phase timer and the response timer advance (R91, R147); the tick is closed (log 3). -/
def advanceTimers (s : State) : State :=
  let s1 := s.withTsq { s.tsq with phase := s.tsq.phase.map TickCounter.advance, tickOpen := false, peakOwed := false }
  if s1.ilk.inForce.isSome then s1.withIlk { s1.ilk with timer := s1.ilk.timer.advance } else s1

/-- Some channel is at a rail (R125). -/
def State.anyRail (s : State) : Bool := s.msu.levelRail || s.msu.pressRail || s.msu.tempRail

/-- The cause of a condition is present at the tick: a level as read, a timer expiry of this tick; the cause of a report
is absent until the sample's use brings it (R145, R155). -/
def State.causePresent (s : State) (c : Cause) : Bool :=
  match c with
  | .estop => s.inputs.estop
  | .lidOpen => !s.inputs.lidClosed
  | .sensorRange => s.anyRail
  | .lineSilence => s.lif.lineSilent
  | .fillTimeout => s.ilk.expired == some .fillTimeout
  | .rampTimeout => s.ilk.expired == some .rampTimeout
  | _ => false

/-- Conditions whose cause is absent at the tick are armed again, and the tick's expiry is over (R145). -/
def rearm (s : State) : State :=
  s.withIlk { s.ilk with disarmed := s.ilk.disarmed.filter s.causePresent, expired := none }

/-- A pressure raises peak_pressure, limited to 65,535 (R8, R136). -/
def raisePeak (p : Nat) (s : State) : State := onTest (fun t => { t with peak := max t.peak (min p 65535) }) s

/-- The test_pressure of the docket in the slot. -/
def State.testPressure (s : State) : Nat :=
  match s.tsq.docket with
  | some d => d.testPressure
  | none => 0

/-- Enter HOLDING with the sample that reached test pressure: hold start stamp, first hold sample, a fresh window
(R97, R98, R129, R135, R136). -/
def enterHolding (p : Nat) (s : State) : State :=
  let s1 := onTest (fun t => { t with holdStart := some s.roundStamp }) (enterReading .holding s)
  s1.withMsu { s1.msu with holdSum := p, holdCount := 1, holdExpired := false }

/-- A hold sample adds to the hold sum (R136). -/
def addHold (p : Nat) (s : State) : State :=
  s.withMsu { s.msu with holdSum := s.msu.holdSum + p, holdCount := s.msu.holdCount + 1 }

/-- What an in-range pressure does by the head's state: ramp, hold, vent (R135 to R137). `owed` says that the sample
counts toward peak_pressure only (log 10). -/
def usePressure (owed : Bool) (s : State) : State :=
  match s.msu.pressure, s.tsq.state with
  | some p, some .ramping =>
    let s1 := raisePeak p s
    if s.testPressure ≤ p then enterHolding p s1 else s1
  | some p, some .holding => addHold p (raisePeak p s)
  | some p, some .venting => if p < s.params.ventDone then enterReading .settling s else s
  | some p, _ => if owed then raisePeak p s else s
  | none, _ => s

/-- The reports of hold checks, in their order (R135). -/
def holdReports (l : Limits) (p : Nat) : List Cause :=
  (if l.cond ≤ p then [Cause.overpressure] else []) ++ (if l.top < p then [Cause.overband] else []) ++
  (if p < l.low then [Cause.leakDrop] else [])

/-- The reports of the sample: a rail, then the hold checks (R125, R135). -/
def sampleReports (s : State) : List Cause :=
  (if s.anyRail then [Cause.sensorRange] else []) ++
  (match s.headIs .holding, s.msu.pressure, s.msu.limits with
   | true, some p, some l => holdReports l p
   | _, _, _ => [])

/-- One sample in a window (R130). -/
def Window.add (w : Window) (tStab level : Nat) (temp : Int) : Window :=
  if w.count == 0 then { w with count := 1, reference := level, crossings := 0, levelSum := level, tempSum := temp }
  else
    let away := tStab < level - w.reference || tStab < w.reference - level
    { w with count := w.count + 1, levelSum := w.levelSum + level, tempSum := w.tempSum + temp,
             crossings := if away then w.crossings + 1 else w.crossings }

/-- The window discarded, the phase's figures kept (R132, R133). -/
def Window.emptied (w : Window) : Window :=
  { w with count := 0, reference := 0, crossings := 0, levelSum := 0, tempSum := 0 }

/-- The budget of unstable windows of a phase, and its report (R132). -/
def windowBudget (h : HeadState) : Nat := if h == .holding then 4 else 8
def budgetReport (h : HeadState) : Cause := if h == .holding then .creep else .unsettled

/-- Change the window. -/
def withWindow (w : Window) (s : State) : State := s.withMsu { s.msu with window := w }

/-- Take the zero reading and enter WAIT_RAMP (R95, R96, R113). -/
def zeroReading (sum t : Nat) (s : State) : State :=
  let s1 := onTest (fun p => { p with s0 := some sum, t0 := some t, zeroStamp := some s.roundStamp }) s
  let s2 := abandonPhase (enterLocked .waitRamp s1)
  s2.withAdm { s2.adm with waitAge := 0, urgent := false }

/-- Take the total reading and enter VENTING (R98). -/
def totalReading (sum t : Nat) (s : State) : State :=
  let s1 := onTest (fun p => { p with st := some sum, tt := some t }) s
  abandonPhase (enterLocked .venting (leaveHolding s1))

/-- Take the permanent reading, assemble the verdict and enter DRAINING (R100). -/
def permanentReading (sum t : Nat) (s : State) : State :=
  let s1 := onTest (fun p => { p with sp := some sum, tp := some t }) s
  abandonPhase (enterDraining (assembleSlot s1))

/-- A reading of a phase. -/
def takeReading (h : HeadState) (sum t : Nat) (s : State) : State :=
  match h with
  | .zeroing => zeroReading sum t s
  | .holding => totalReading sum t s
  | .settling => permanentReading sum t s
  | _ => s

/-- Judge a full window (R130 to R132). -/
def judgeWindow (h : HeadState) (w : Window) (s : State) : State :=
  if w.crossings ≤ 2 then
    let t := roundDiv w.tempSum Config.windowSize
    if 0 ≤ t && t ≤ 5000 then takeReading h w.levelSum t.toNat s
    else raise [.tempRange] (withWindow { w.emptied with shut := true } s)
  else
    let w1 := { w.emptied with failures := w.failures + 1 }
    if windowBudget h ≤ w1.failures then raise [budgetReport h] (withWindow { w1 with shut := true } s)
    else withWindow w1 s

/-- Windows may begin: always in ZEROING and SETTLING, in HOLDING from the tick of the hold timer's expiry on (R129). -/
def State.windowOpen (s : State) (h : HeadState) : Bool :=
  h != .holding || s.msu.holdExpired ||
  (match s.tsq.phase with | some c => ticks s.holdTime ≤ c.ticks | none => false)

/-- The window's use of a numbered sample of a reading phase (R129 to R133). -/
def useWindow (h : HeadState) (x : Sample) (s : State) : State :=
  let w := s.msu.window
  if 0 < w.skip then withWindow { w with skip := w.skip - 1 } s
  else if w.shut || !s.windowOpen h then s
  else if s.msu.levelRail || s.msu.tempRail then withWindow w.emptied s
  else
    let w1 := w.add s.params.tStab x.level.toNat (convertTemp s.params x.temp)
    if w1.count == Config.windowSize then judgeWindow h w1 s else withWindow w1 s

/-- A reading phase (R129). -/
def HeadState.reads (h : HeadState) : Bool := h == .zeroing || h == .holding || h == .settling

/-- The phase whose window this sample enters: the reading phase the head stood in before the tick, unless it was
entered at this tick ahead of the sample (R129). -/
def State.numberedPhase (s : State) : Option HeadState :=
  match s.tsq.state, s.tsq.phase with
  | some h, some c => if h.reads && !c.fresh then some h else none
  | _, _ => none

/-- The window stage: made when the head still stands in the phase the sample is numbered in. -/
def windowStage (phase : Option HeadState) (x : Sample) (s : State) : State :=
  match phase with
  | some h => if s.headIs h then useWindow h x s else s
  | none => s

/-- A head at a tick, ahead of the use of its sample: inputs and timers, rails and pressure, the arming (R88, R91, R125,
R126, R145). -/
def tickRead (pins : Pins) (x : Sample) (s : State) : State :=
  rearm (readChannels x (advanceTimers (senseInputs pins s)))

/-- The sample tick at a head (R124). A SENSOR_RANGE report of this sample is taken here, ahead of a response that
completes at the same tick (R151 lets either come first; log 9). -/
def headSample (pins : Pins) (x : Sample) (s : State) : State :=
  let s2 := usePressure s.tsq.peakOwed (tickRead pins x s)
  windowStage s.numberedPhase x (raise (sampleReports s2) s2)

/-- The tick at DISPOSE: inputs, the CLEAR input armed, the arrival timers (R162, R174; log 25). -/
def disposeTick (pins : Pins) (s : State) : State :=
  let limit := ticks s.params.arrivalTime
  let s1 := s.withInputs pins
  s1.withDsu { s1.dsu with
    clearArmed := s.dsu.clearArmed || !pins.clear
    arrival := s.dsu.arrival.map fun a => { a with ticks := if a.ticks < limit then a.ticks + 1 else a.ticks } }

/-- SAMPLE_TICK (R88, R124, R156, R162). -/
def execSampleTick (pins : Pins) (x : Sample) (s : State) : Out :=
  match s.role with
  | some .test => .next (headSample pins x s)
  | some .dispose => .next (disposeTick pins s)
  | some .inspect => .next (s.withInputs pins)
  | none => .next s

end Sys2Proof.Machine
end

