-- ==== Sys2Proof/Machine/Messages.lean ====
section
/-! DEFINITION. The message window: contention, sending, accepting and receiving (file 03). -/

namespace Sys2Proof.Machine

/-! ### The sender -/

/-- The station's own write of cell 263, taken as the cell began (R21; log 22). -/
def State.closeWrite (s : State) : Bool := s.lif.round.closeZero.getD s.wantsPaced

/-- The front message contends (R39). -/
def markFront : List TxMsg → List TxMsg
  | [] => []
  | m :: rest => { m with contending := true } :: rest

/-- A receiver reads nothing more of the window and is in IDLE_WAIT at once; its round ends there, and the update of
the round's end is still due (R32, R40, R42). -/
def leaveWindow (s : State) : State :=
  s.withLif { s.lif with state := .idleWait, idleCount := 0, rxBuffer := none,
                         round := { s.lif.round with stage := .over } }

/-- A contender's key that a receiver ignores: a kind or an urgency cell that Table 3-1 does not have (R40). All twelve
cells at 1 are no key: nobody contended (R22). -/
def keyIgnored (read : Key) : Bool := read != BitVec.allOnes 12 && (keyKind read).isNone

/-- The key cells (R39, R40): the station writes the key of its front message, if it has one, and reads the lowest. A
station that has not won leaves the window when the key read is none that it takes. -/
def contend (read : Key) (s : State) : State :=
  let sent := s.txq.head?.map (msgKey s.ownAddr)
  let won := match sent with | some k => k &&& ~~~read == 0 | none => false
  let s1 := (withRound { s.lif.round with stage := .window, closeZero := some s.closeWrite, keySent := sent,
                                          key := some read, won := won } s).withTxq (markFront s.txq)
  if keyIgnored read && !won then leaveWindow s1 else s1

/-- The station has posted in the round in progress and its window is still to come (R22, R39). -/
def State.beforeWindow (s : State) : Bool :=
  s.lif.state == .inRound && s.lif.round.posted.isSome && s.lif.round.stage == .posts

/-- CONTENTION (R39). -/
def execContention (read : Key) (s : State) : Out := if s.beforeWindow then .next (contend read s) else .next s

/-- What an unaccepted sending of a kind changes outside the queue: the offer stall count (R51), a call whose timer
has expired (R165). -/
def unacceptedEffect (k : MsgKind) (s : State) : State :=
  match k with
  | .docketOffer => s.withIeu { s.ieu with stall := s.ieu.stall + 1 }
  | .releaseCall => callUnaccepted s
  | _ => s

/-- A sending ends unaccepted (R47). -/
def unaccepted (m : TxMsg) (s : State) : State := unacceptedEffect m.kind (countUnaccepted s)

/-- Move the round on. -/
def roundStage (g : RoundStage) (s : State) : State := withRound { s.lif.round with stage := g } s

/-- The winner's frame, read back cell by cell (R41). A broadcast leaves the queue at the end of its CRC (R45), an
abandoned one too (log 14). -/
def sendFrame (read : List Byte) (m : TxMsg) (key : Key) (s : State) : State :=
  let f := frameOf key m
  let s1 := withRound { s.lif.round with frameSent := some f } s
  if !m.kind.directed then roundStage .over (removeContender s1)
  else if overruled (frameBytes f) read then roundStage .over (unaccepted m s1)
  else roundStage .accept s1

/-- MESSAGE_SEND (R41). -/
def execMessageSend (read : List Byte) (s : State) : Out :=
  match s.contender, s.lif.round.keySent with
  | some m, some key =>
    if s.lif.state == .inRound && s.lif.round.won && s.lif.round.stage == .window then .next (sendFrame read m key s)
    else .next s
  | _, _ => .next s

/-- The head's return is accepted (R103, R105, R108): custody has moved, the gate flag is set; the gate opens, or the
head goes to IDLE when the docket had no cylinder. -/
def returnTaken (s : State) : State :=
  let empty := match s.tsq.docket with | some d => d.noCylinder | none => false
  let s1 := (s.withTsq { s.tsq with docket := none, gateFlag := true }).withMsu { s.msu with limits := none }
  if s1.tsq.state == some .unloading then (if empty then enterIdle s1 else openGate s1)
  else if s1.tsq.state == some .safe && empty then s1.withTsq { s1.tsq with returnState := some .idle }
  else s1

/-- What a valid accept by address `a` does for each kind (R45, R51, R74, R103, R165). -/
def acceptedEffect (k : MsgKind) (a : Addr) (s : State) : State :=
  match k with
  | .docketOffer => offerAccepted a s
  | .docketDirect => directAccepted s
  | .docketReturn => returnTaken s
  | .releaseCall => callAccepted s
  | _ => s

/-- The sender reads the accept field (R45). -/
def readAccept (read : Byte) (m : TxMsg) (s : State) : State :=
  match acceptPair read with
  | some a => roundStage .over (acceptedEffect m.kind a (removeContender s))
  | none => roundStage .over (unaccepted m s)

/-- ACCEPT_FIELD_READ (R45). -/
def execAcceptFieldRead (read : Byte) (s : State) : Out :=
  match s.contender with
  | some m =>
    if s.lif.state == .inRound && s.lif.round.won && s.lif.round.stage == .accept then .next (readAccept read m s)
    else .next s
  | none => .next s

/-- A head's return is dropped: HANDOFF_FAILED, at once or at the exit of a SAFE (R49, R108, R109). The caller stays
recorded until the next call: the spec clears it at the completion of an unload alone (DESIGN CHOICE, log 21). -/
def returnDropped (s : State) : State :=
  if s.tsq.state == some .unloading then enterOos .handoffFailed s
  else if s.tsq.state == some .safe && s.tsq.returnState == some .unloading then
    s.withTsq { s.tsq with returnState := some .outOfService, oosCause := some .handoffFailed }
  else s

/-- What the drop of a message does (R48, R49, R75, R165). -/
def droppedEffect (k : MsgKind) (s : State) : State :=
  match k with
  | .docketReturn => returnDropped s
  | .docketDirect => directDropped s
  | .releaseCall => callRefused s
  | _ => s

/-- Drop the first message with four unaccepted sendings, if there is one (R48). -/
def dropMessage (s : State) : State :=
  match s.txq.find? TxMsg.exhausted with
  | some m => droppedEffect m.kind (s.withTxq (s.txq.eraseP TxMsg.exhausted))
  | none => s

/-- MESSAGE_DROPPED (R48). -/
def execMessageDropped (s : State) : Out := .next (dropMessage s)

/-! ### The receiver -/

/-- The station can receive the frame: it takes part in the round, its window is not over, it has not won it, and a
key read at the contention is the frame's (R22, R39, R42). -/
def State.canReceive (s : State) (f : Frame) : Bool :=
  s.lif.state == .inRound && s.lif.round.posted.isSome && !s.lif.round.won &&
  (s.lif.round.stage == .posts || s.lif.round.stage == .window) &&
  (match s.lif.round.key with | some k => k == f.key | none => true)

/-- The key of a frame has been read; nothing more of the window is read after the frame. -/
def keyRead (f : Frame) (s : State) : State :=
  withRound { s.lif.round with stage := .over, closeZero := some s.closeWrite, key := some f.key } s

/-- The frame stands in the receive buffer; the window's message is over (R42). -/
def buffered (f : Frame) (s : State) : State :=
  let s1 := keyRead f s
  s1.withLif { s1.lif with rxBuffer := some f }

/-- A receiver stops reading in the frame: its key is none of kind `k`, or its length is above 60 (R40, R42). -/
def frameCut (k : MsgKind) (f : Frame) : Bool := keyKind f.key != some k || 60 < f.len.toNat

/-- A frame of kind `k` is received: `take` acts on it when it passes every check up to its body (R40, R42, R43). A
receiver that stops reading in it holds nothing of it and leaves the window. -/
def receive (k : MsgKind) (f : Frame) (take : State → State) (s : State) : State :=
  if s.canReceive f then
    if frameCut k f then leaveWindow (keyRead f s)
    else if frameChecks k f then take (buffered f s)
    else buffered f s
  else s

/-- Write the accept field, and take the message if it reads back exactly (R44). -/
def writeAccept (read : Byte) (take : State → State) (s : State) : State :=
  let s1 := withRound { s.lif.round with acceptDriven := some (acceptField s.ownAddr) } s
  if read == acceptField s.ownAddr then take s1 else s1

/-- The test part of a new test (R7). -/
def newTest (a : Addr) : TestPart := { head := a }

/-- The head takes an offer (R7, R92). The idle age keeps its count once IDLE is left: the spec gives it a value at the
entry alone (R29; DESIGN CHOICE, log 42). -/
def takeOffer (d : Docket) (s : State) : State :=
  enterPhase .loading
    (s.withTsq { s.tsq with docket := some { d with test := some (newTest s.ownAddr) }, gateFlag := false })

/-- An offer's decision at a head (R50). -/
def offerFor (f : Frame) (read : Byte) (s : State) : State :=
  if s.isHead && f.dest == 0x10 && s.tsq.state == some .idle then
    match parseDocket .docketOffer (keyAddr f.key) f.body with
    | some d => if s.chosenHead d == some s.ownAddr then writeAccept read (takeOffer d) s else s
    | none => s
  else s

/-- DOCKET_OFFER (R50). -/
def execDocketOffer (f : Frame) (read : Byte) (s : State) : Out :=
  .next (receive .docketOffer f (offerFor f read) s)

/-- The destination of a message to this station (R43). -/
def State.addressed (s : State) (f : Frame) : Bool := f.dest == 0#4 ++ s.ownAddr

/-- The head takes a call: caller, DOCKET_RETURN, UNLOADING (R52, R103). The done age keeps its count once DONE is left
(R29; DESIGN CHOICE, log 42). -/
def takeCall (a : Addr) (s : State) : State :=
  let body := match s.tsq.docket with | some d => docketBody .docketReturn d | none => []
  let s1 := s.withTsq { s.tsq with caller := some a }
  enterUnloading (queueMsg { kind := .docketReturn, dest := 0#4 ++ a, body := body } s1)

/-- A call's decision at a head: taken in DONE, else late (R52, R102). -/
def callFor (f : Frame) (read : Byte) (s : State) : State :=
  if s.isHead && s.addressed f && s.tsq.state == some .done then writeAccept read (takeCall (keyAddr f.key)) s else s

/-- RELEASE_CALL (R52). -/
def execReleaseCall (f : Frame) (read : Byte) (s : State) : Out :=
  .next (receive .releaseCall f (callFor f read) s)

/-- A direct docket's decision at DISPOSE (R160). -/
def directFor (f : Frame) (read : Byte) (s : State) : State :=
  if s.dsuActs && s.addressed f then
    match parseDocket .docketDirect (keyAddr f.key) f.body with
    | some d => if 1 ≤ s.dsu.free && s.dsu.fresh d then writeAccept read (addArrival d) s else s
    | none => s
  else s

/-- DOCKET_DIRECT (R160). -/
def execDocketDirect (f : Frame) (read : Byte) (s : State) : Out :=
  .next (receive .docketDirect f (directFor f read) s)

/-- A call is outstanding to a head. -/
def Dsu.called (u : Dsu) (a : Addr) : Bool := match u.call with | some c => c.head == a | none => false

/-- A return's decision at DISPOSE (R161). -/
def returnFor (f : Frame) (read : Byte) (s : State) : State :=
  if s.dsuActs && s.addressed f then
    match parseDocket .docketReturn (keyAddr f.key) f.body with
    | some d =>
      if s.dsu.called (keyAddr f.key) && s.dsu.fresh d then writeAccept read (returnAccepted d) s else s
    | none => s
  else s

/-- DOCKET_RETURN (R161). -/
def execDocketReturn (f : Frame) (read : Byte) (s : State) : Out :=
  .next (receive .docketReturn f (returnFor f read) s)

/-- A received card is written in the sender's entry, but for the station's own (R33, R53, R114); the round keeps the
card it replaces, which the readers of the table see until the round's update (R34). -/
def cardFor (f : Frame) (s : State) : State :=
  let a := keyAddr f.key
  if f.dest == 0xFF && a != s.ownAddr then
    match parseCard f.body with
    | some c =>
      refreshShare (withRound { s.lif.round with cardFrom := some a, cardBefore := (s.entry a).card }
        (setEntry a { s.entry a with card := some c } s))
    | none => s
  else s

/-- STATION_CARD (R53). -/
def execStationCard (f : Frame) (s : State) : Out := .next (receive .stationCard f (cardFor f) s)

/-- A received note goes to the history at INSPECT (R54, R84). -/
def noteFor (f : Frame) (s : State) : State :=
  if s.ieuActs && f.dest == 0xFF then
    match parseNote f.body with
    | some n => takeNote n s
    | none => s
  else s

/-- VERDICT_NOTE (R84). -/
def execVerdictNote (f : Frame) (s : State) : Out := .next (receive .verdictNote f (noteFor f) s)

end Sys2Proof.Machine
end

