-- ==== Sys2Proof/Machine/Line.lean ====
section
/-! DEFINITION. The cell line: idle span, calls, the own post, the ends of rounds and the line timers (file 02). -/

namespace Sys2Proof.Machine

/-! ### Calls and the own post -/

/-- The idle count after a run of cells; once it has reached the idle span no more are counted (R18). -/
def countRun (c : Nat) (r : LineRun) : Nat :=
  if Config.idleSpan ≤ c then c
  else
    match r with
    | .released n => min Config.idleSpan (c + n)
    | .low => 0

/-- Cells are read in IDLE_WAIT; at 1,024 consecutive released ones the interface enters CALL_WAIT (R18). -/
def readIdle (cells : List LineRun) (s : State) : State :=
  let c := cells.foldl countRun s.lif.idleCount
  s.withLif { s.lif with idleCount := c, state := if Config.idleSpan ≤ c then .callWait else .idleWait }

/-- IDLE_SPAN (R18). -/
def execIdleSpan (cells : List LineRun) (s : State) : Out :=
  if s.lif.state == .idleWait then .next (readIdle cells s) else .next s

/-- A part in a round that ends incomplete: the pacing timer starts, nothing else changes but the interface (R22,
R24). -/
def endIncomplete (s : State) : State :=
  toIdleWait (s.withLif { s.lif with pacing := pacingAtEnd s.lif.mode })

/-- Enter IN_ROUND and check the four call cells (R19). -/
def enterRound (read : BitVec 4) (s : State) : State :=
  if read == 0 then s.withLif { s.lif with state := .inRound, round := {} } else endIncomplete s

/-- CALL_MADE (R19, R23, R24): with a reason to call. -/
def execCallMade (read : BitVec 4) (s : State) : Out :=
  if s.lif.state == .callWait && s.reasonToCall then .next (enterRound read s) else .next s

/-- CALL_JOINED (R19). -/
def execCallJoined (read : BitVec 4) (s : State) : Out :=
  if s.lif.state == .callWait then .next (enterRound read s) else .next s

/-- ADDRESS_CONFLICT: the part in the round ends, the transmit queue is emptied (R37). The pacing timer is left as it is:
R24 starts it at the end of every round taken part in, and R37 does not name it (DESIGN CHOICE, log 20). -/
def addressConflict (s : State) : State :=
  (s.withLif { s.lif with state := .addressConflict, round := {}, rxBuffer := none }).withTxq []

/-- The own post: latched, written and read back (R20, R37). -/
def writePost (w read : PostWord) (s : State) : State :=
  if read == w then withRound { s.lif.round with posted := some w } s else addressConflict s

/-- POST (R20). -/
def execPost (read : PostWord) (s : State) : Out :=
  match s.postNow with
  | some w =>
    if s.lif.state == .inRound && s.lif.round.posted.isNone then .next (writePost w read s) else .next s
  | none => .next s

/-- INCOMPLETE_ROUND_END (R22). -/
def execIncompleteRoundEnd (s : State) : Out := if s.beforeWindow then .next (endIncomplete s) else .next s

/-! ### Line timers -/

/-- A timer that runs expires. -/
def Timer.expire (t : Timer) : Timer := if t == .running then .expired else t

/-- PACING_EXPIRY (R24). -/
def execPacingExpiry (s : State) : Out := .next (s.withLif { s.lif with pacing := s.lif.pacing.expire })

/-- KEEP_ALIVE_EXPIRY (R25). -/
def execKeepAliveExpiry (s : State) : Out := .next (s.withLif { s.lif with keepAlive := s.lif.keepAlive.expire })

/-- The silence timer expires: the indication is raised, and at a head LINE_SILENCE may latch (R26, R155). -/
def silenceExpiry (o : TickOrder) (s : State) : State :=
  let s1 := s.withLif { s.lif with silence := .expired, lineSilent := true }
  if s1.isHead then raise [.lineSilence] (openTick o s1) else s1

/-- SILENCE_EXPIRY (R26). -/
def execSilenceExpiry (o : TickOrder) (s : State) : Out :=
  if s.lif.silence == .running then .next (silenceExpiry o s) else .next s

/-! ### The end of a complete round -/

/-- The entry of a peer after the update (R32, R53): `fresh` says that its card came in this round. -/
def updatePeer (read : PostWord) (now : BitVec 32) (fresh : Bool) (e : PvtEntry) : PvtEntry :=
  match classifyPost read with
  | .absent => { e with view := .absent, card := none }
  | .unknown => { e with view := .unknown }
  | .intact w =>
    let keep := match e.card with | some c => !fresh || postRole w == some c.role | none => true
    { view := .intact w, lastIntact := now, card := if keep then e.card else none }

/-- The entry of an address after the update (R32). -/
def updatedEntry (posts : List PostWord) (w : PostWord) (s : State) (a : Addr) : PvtEntry :=
  if a == s.ownAddr then { s.entry a with view := .intact w, lastIntact := s.lif.roundCounter }
  else updatePeer (posts.getD a.toNat (BitVec.allOnes 16)) s.lif.roundCounter
    (s.lif.round.cardFrom == some a) (s.entry a)

/-- The peer view table update (R32). -/
def updateTable (posts : List PostWord) (w : PostWord) (s : State) : State :=
  s.withPvt (allAddrs.map (updatedEntry posts w s))

/-- An intact entry. -/
def View.isIntact (v : View) : Bool := match v with | .intact _ => true | _ => false

/-- Some peer was ABSENT in `old` and is intact now (R36). -/
def State.appeared (s : State) (old : List PvtEntry) : Bool :=
  allAddrs.any fun a => a != s.ownAddr && (old.getD a.toNat {}).view == .absent && (s.entry a).view.isIntact

/-- Cards at a round end (R33, R36): the own entry and the first card after the first complete round, a card when an
address newly appears. -/
def cardStep (r : Role) (old : List PvtEntry) (s : State) : State :=
  if !s.lif.joined then
    let s1 := setEntry s.ownAddr { s.entry s.ownAddr with card := some (ownCard r s) } s
    queueCard r (s1.withLif { s1.lif with joined := true })
  else if s.appeared old then queueCard r s
  else s

/-- An intact post of the station's own singular role at another address (R38). -/
def State.seesTwin (s : State) (r : Role) : Bool :=
  r != .test && allAddrs.any fun a =>
    a != s.ownAddr && (match (s.entry a).view with | .intact w => postRole w == some r | _ => false)

/-- Enter ROLE_CONFLICT (R38). -/
def roleConflict (r : Role) (s : State) : State :=
  let s1 := (s.withLif { s.lif with roleConflict := true }).withTxq []
  match r with
  | .inspect => intakeConflict s1
  | .dispose => disposeConflict s1
  | .test => s1

/-- The role conflict check of a round end (R38). -/
def conflictStep (r : Role) (s : State) : State :=
  if s.seesTwin r && !s.lif.roleConflict then roleConflict r s else s

/-- The line mode and the timers after a complete round (R21, R24 to R26): the mode is the one cell 263 reads, whatever
the station itself wrote. -/
def lineStep (cell263 : Bool) (s : State) : State :=
  let mode := if cell263 then LineMode.quiet else .paced
  s.withLif { s.lif with mode := mode, pacing := pacingAtEnd mode, keepAlive := .running, silence := .running,
                         lineSilent := false }

/-- Wait counts: the message that contended and is still queued (R47). -/
def waitStep (s : State) : State :=
  s.withTxq (s.txq.map fun m =>
    if m.contending then { m with wait := min 15 (m.wait + 1), contending := false, withdraw := false } else m)

/-- The ages of the head's state (R29, R116). -/
def ageStep (s : State) : State :=
  match s.tsq.state with
  | some .idle => s.withTsq { s.tsq with idleAge := min 63 (s.tsq.idleAge + 1) }
  | some .done => s.withTsq { s.tsq with doneAge := min 31 (s.tsq.doneAge + 1) }
  | some .waitRamp => s.withAdm { s.adm with waitAge := min 31 (s.adm.waitAge + 1) }
  | _ => s

/-- The lowest address whose card-holding entry has been UNKNOWN for 64 rounds (R34). -/
def State.stalePeer (s : State) : Option Addr :=
  allAddrs.find? fun a =>
    let e := s.entry a
    e.card.isSome && e.view == .unknown && Config.staleRounds ≤ (s.lif.roundCounter - e.lastIntact).toNat

/-- The PEER_STALE indication (R34). -/
def staleStep (s : State) : State := s.withLif { s.lif with staleAddr := s.stalePeer }

/-- Enter RAMPING: the limits are computed, age and flag discarded (R97, R113, R120, R134). -/
def enterRamping (s : State) : State :=
  let s1 := enterLocked .ramping s
  let s2 := s1.withMsu { s1.msu with limits := some (pressureLimits s1.params s1.testPressure) }
  s2.withAdm { s2.adm with waitAge := 0, urgent := false }

/-- The admission decision (R119, R120). -/
def admission (s : State) : State :=
  if s.headIs .waitRamp && s.hasClaim && s.countAhead < s.adm.kEff then enterRamping s else s

/-- The record line of a card that came in this round and was kept (R53, R176). -/
def cardRecord (s : State) : State :=
  match s.lif.round.cardFrom with
  | some a =>
    match (s.entry a).card with
    | some c => produceLine (cardLine a c) s
    | none => s
  | none => s

/-- The decisions of the role at the end of a complete round (R51, R73, R74, R120, R164). The spec orders neither R73
against R74 nor a card's record line against the call; the model takes the infeed front first, so that a docket it
moves to an empty direct queue may be sent from the same round end, and the record line first, so that a line that
fills the buffer holds back the call of that round end (DESIGN CHOICE, log 11). -/
def roleStep (r : Role) (s : State) : State :=
  if s.lif.roleConflict then s
  else
    match r with
    | .test => admission s
    | .inspect => directDecision (offerDecision s)
    | .dispose => callDecision (cardRecord s)

/-- The end of a complete round, in the order of log 11 (R32). `w` is the word posted. -/
def completeRound (r : Role) (w : PostWord) (posts : List PostWord) (cell263 : Bool) (s : State) : State :=
  let s1 := dropMessage s
  let s2 := s1.withLif { s1.lif with roundCounter := s1.lif.roundCounter + 1 }
  let s3 := lineStep cell263 (updateTable posts w s2)
  let s4 := conflictStep r (cardStep r s.pvt s3)
  let s5 := staleStep (refreshShare (ageStep (waitStep s4)))
  endRound (roleStep r s5)

/-- The end of a complete round is due: the station takes part in it, or has left its window early and is back in
IDLE_WAIT or, already, in CALL_WAIT (R40, R42); no sending of its own is in progress, which would end its round
(R41). -/
def State.roundDue (s : State) : Bool :=
  (s.lif.state == .inRound || s.lif.state == .idleWait || s.lif.state == .callWait) && !s.sending

/-- ROUND_END (R32). -/
def execRoundEnd (posts : List PostWord) (cell263 : Bool) (s : State) : Out :=
  match s.role, s.lif.round.posted with
  | some r, some w =>
    if s.roundDue then .next (completeRound r w posts cell263 s) else .next s
  | _, _ => .next s

/-! ### Stops -/

/-- STOP_REPORTED (R156): the flag is set, and the role's unit acts, but for one in ROLE_CONFLICT. -/
def stopReported (r : Role) (s : State) : State :=
  let s1 := (s.withInputs { s.inputs with estop := true }).withIlk { s.ilk with stopFlag := true }
  if s.lif.roleConflict then s1
  else
    match r with
    | .inspect => intakeStop s1
    | .dispose => disposeStop s1
    | .test => s1

/-- STOP_REPORTED (R156): the first tick at which ESTOP reads active. -/
def execStopReported (s : State) : Out :=
  match s.role with
  | some .test => .next s
  | some r => if s.ilk.stopFlag then .next s else .next (stopReported r s)
  | none => .next s

/-- STOP_ENDED (R156). -/
def stopEnded (r : Role) (s : State) : State :=
  let s1 := (s.withInputs { s.inputs with estop := false }).withIlk { s.ilk with stopFlag := false }
  if s.lif.roleConflict then s1
  else
    match r with
    | .inspect => if s1.ieu.state == .estop then intakeResume s1 else s1
    | .dispose => disposeResume s1
    | .test => s1

/-- STOP_ENDED (R156): the first tick at which ESTOP reads inactive. -/
def execStopEnded (s : State) : Out :=
  match s.role with
  | some .test => .next s
  | some r => if s.ilk.stopFlag then .next (stopEnded r s) else .next s
  | none => .next s

end Sys2Proof.Machine
end

