-- ==== Sys2Proof/Machine/Startup.lean ====
section
/-! DEFINITION. Resets, straps and the profile (file 11). -/

namespace Sys2Proof.Machine

/-- The state a reset leaves: every block at its reset values, the kind of reset recorded, the line interface OFF, the
loader in RESET (R180). The queue of commands and the model's free counter are not the part's. -/
def resetState (c : ResetCause) (s : State) : State :=
  let r := State.reset
  let r1 := r.withLoader { r.loader with cause := c }
  (r1.withFreeCount s.freeCount).withPending s.pending

/-- POWER_ON_RESET (R180): the serial history is cleared too (R81). -/
def execPowerOnReset (s : State) : Out := .next (resetState .powerOn s)

/-- The serial history with every stamp at 0 (R81). -/
def rebaseHistory (h : List HistSet) : List HistSet :=
  h.map fun x => { x with way0 := { x.way0 with stamp := 0 }, way1 := { x.way1 with stamp := 0 } }

/-- PIN_RESET (R180): the serial history is kept with its stamps at 0 (R81). A POWER_ON reset that is still held stays
POWER_ON (R180). The history is kept whatever role the release then samples, though section 5 has the tables of another
role empty: such a station neither reads nor writes it (DESIGN CHOICE, log 24). -/
def execPinReset (s : State) : Out :=
  if s.loader.phase == .reset && s.loader.cause == .powerOn then .next s
  else .next ((resetState .pin s).withHistory (rebaseHistory s.history))

/-- Enter STARTUP_FAULT with a code (R182). -/
def enterFault (c : Cause) (s : State) : State :=
  s.withLoader { s.loader with phase := .startupFault, fault := some c }

/-- The straps sampled at the release of a reset (R181). -/
def releaseReset (a : Addr) (r : BitVec 2) (high : Bool) (s : State) : State :=
  let s1 := s.withLoader { s.loader with straps := { addr := a, role := r, cellHigh := high } }
  if (Role.ofCode r).isNone then enterFault .roleStrap s1
  else s1.withLoader { s1.loader with phase := .reading, readCount := 0 }

/-- RESET_RELEASE (R181). -/
def execResetRelease (a : Addr) (r : BitVec 2) (high : Bool) (s : State) : Out :=
  if s.loader.phase == .reset then .next (releaseReset a r high s) else .next s

/-! ### The image (R182) -/

/-- A byte of the image; past its end the memory reads 0xFF (log 17). -/
def imageByte (im : List Byte) (i : Nat) : Byte := im.getD i 0xFF

/-- The first `n` bytes of the image. -/
def imageTake (im : List Byte) (n : Nat) : List Byte := im.take n ++ List.replicate (n - im.length) 0xFF

/-- The image's format word. -/
def imageFormat (im : List Byte) : Nat := beNat [imageByte im 0, imageByte im 1]
/-- The image's length. -/
def imageLength (im : List Byte) : Nat := beNat [imageByte im 2, imageByte im 3]

/-- The CRC over bytes 0 to L−3 equals the last two bytes (R182). -/
def imageCrcOk (im : List Byte) : Bool :=
  let l := imageLength im
  (crc16Bytes (imageTake im (l - 2))).toNat == beNat [imageByte im (l - 2), imageByte im (l - 1)]

/-- The items of an image, or none when their structure breaks (R182 check 5). The first argument bounds the number
of items. -/
def parseItems : Nat → List Byte → Option (List (Nat × List Byte))
  | _, [] => some []
  | 0, _ :: _ => none
  | _ + 1, [_] => none
  | fuel + 1, id :: n :: rest =>
    if n.toNat == 0 || 14 < n.toNat || rest.length < n.toNat then none
    else (parseItems fuel (rest.drop n.toNat)).map fun more => (id.toNat, rest.take n.toNat) :: more

/-- The items of the image: bytes 6 to L−3 (Table 11-2). -/
def imageItems (im : List Byte) : Option (List (Nat × List Byte)) :=
  parseItems 512 ((imageTake im (imageLength im - 2)).drop 6)

/-! ### Items (R183, Table 11-3) -/

/-- A numeric parameter: the role it belongs to (none: all), its range, its default, and where it stands. -/
structure NumItem where
  role : Option Role
  lo : Nat
  hi : Nat
  dflt : Nat
  put : Params → Nat → Params

/-- The numeric parameters of Table 11-3 for all roles, INSPECT and DISPOSE. -/
def stationItem (id : Nat) : Option NumItem :=
  match id with
  | 0x01 => some ⟨none, 20, 200, 40, fun p v => { p with pacingGap := v }⟩
  | 0x02 => some ⟨none, 500, 5000, 1000, fun p v => { p with keepAlive := v }⟩
  | 0x10 => some ⟨some .inspect, 12, 1152, 96, fun p v => { p with rdrRate := v }⟩
  | 0x11 => some ⟨some .inspect, 12, 1152, 96, fun p v => { p with trmRate := v }⟩
  | 0x12 => some ⟨some .inspect, 0, 500, 50, fun p v => { p with residualLimit := v }⟩
  | 0x13 => some ⟨some .inspect, 0, 6, 3, fun p v => { p with earlyWindow := v }⟩
  | 0x18 => some ⟨some .dispose, 12, 1152, 96, fun p v => { p with mrkRate := v }⟩
  | 0x19 => some ⟨some .dispose, 12, 1152, 96, fun p v => { p with recRate := v }⟩
  | 0x1A => some ⟨some .dispose, 10, 600, 120, fun p v => { p with arrivalTime := v }⟩
  | 0x1B => some ⟨some .dispose, 5, 60, 20, fun p v => { p with callTime := v }⟩
  | _ => none

/-- The numeric parameters of Table 11-3 for TEST. -/
def headItem (id : Nat) : Option NumItem :=
  let item := fun lo hi dflt put => some (NumItem.mk (some .test) lo hi dflt put)
  match id with
  | 0x20 => item 500 45000 500 fun p v => { p with ratingKpa := v }
  | 0x21 => item 5 1500 5 fun p v => { p with capacity := v }
  | 0x22 => item 1 4 1 fun p v => { p with k := v }
  | 0x23 => item 5 300 60 fun p v => { p with loadTime := v }
  | 0x24 => item 10 600 240 fun p v => { p with fillTime := v }
  | 0x25 => item 10 300 90 fun p v => { p with rampTime := v }
  | 0x26 => item 5 120 20 fun p v => { p with drainTime := v }
  | 0x27 => item 5 120 45 fun p v => { p with unloadTime := v }
  | 0x28 => item 5 600 30 fun p v => { p with rampPatience := v }
  | 0x29 => item 5 120 10 fun p v => { p with tripDwell := v }
  | 0x2A => item 10 200 50 fun p v => { p with ventDone := v }
  | 0x2B => item 0 32767 0 fun p v => { p with pOff := v }
  | 0x2C => item 1 65535 4096 fun p v => { p with pGain := v }
  | 0x2D => item 0 65535 0 fun p v => { p with tOff := v }
  | 0x2E => item 1 65535 4096 fun p v => { p with tGain := v }
  | 0x2F => item 0 63 10 fun p v => { p with settleSkip := v }
  | 0x30 => item 1 4096 8 fun p v => { p with tStab := v }
  | 0x31 => item 10 50 30 fun p v => { p with bandPm := v }
  | 0x32 => item 50 150 100 fun p v => { p with condPm := v }
  | 0x33 => item 2 50 10 fun p v => { p with dropPm := v }
  | 0x34 => item 1 65535 2048 fun p v => { p with gB := v }
  | 0x35 => item 0 65535 0 fun p v => { p with cT := v }
  | 0x36 => item 10 100000 100 fun p v => { p with eTMin := v }
  | 0x37 => item 0 500 100 fun p v => { p with nUnder := v }
  | _ => none

/-- A value brought to the nearer limit of its range (R183). -/
def clamp (lo hi v : Nat) : Nat := max lo (min hi v)

/-- A value outside its range. -/
def outside (lo hi v : Nat) : Bool := v < lo || hi < v

/-- What taking items has given so far: the parameters, the status CLAMPED, the identifiers taken. -/
structure Taken where
  params : Params
  clamped : Bool := false
  seen : List Nat := []
deriving DecidableEq, Repr

/-- An item that is none of the station's sets the status and nothing else (R183). -/
def Taken.skip (t : Taken) : Taken := { t with clamped := true }

/-- An item of the station: a second item for one parameter, or a bad one, sets the status. A bad item leaves its
parameter at its default, or its entry undefined, also where an earlier item had written it: the later item replaces
the earlier (R183; log 18). -/
def Taken.put (t : Taken) (id : Nat) (bad : Bool) (p : Params) : Taken :=
  { params := p, clamped := t.clamped || bad || t.seen.contains id, seen := id :: t.seen }

/-- A numeric item (R183). -/
def takeNumber (n : NumItem) (id : Nat) (v : List Byte) (t : Taken) : Taken :=
  if 4 < v.length then t.put id true (n.put t.params n.dflt)
  else t.put id (outside n.lo n.hi (beNat v)) (n.put t.params (clamp n.lo n.hi (beNat v)))

/-- The entry of a class item of 8 bytes (R183). -/
def classEntryOf (v : List Byte) : ClassEntry :=
  { defined := true, intervalYears := clamp 1 15 (beNat (v.take 1)), holdTime := clamp 10 300 (beNat ((v.drop 1).take 2)),
    ratioLimit := clamp 100 2000 (beNat ((v.drop 3).take 2)),
    massLossLimit := clamp 0 10000 (beNat ((v.drop 5).take 2)), reeApplies := beNat (v.drop 7) != 0 }

/-- A field of a class item lies outside its range, or ree_applies above 1 (R183). -/
def classClamped (v : List Byte) : Bool :=
  outside 1 15 (beNat (v.take 1)) || outside 10 300 (beNat ((v.drop 1).take 2)) ||
  outside 100 2000 (beNat ((v.drop 3).take 2)) || 10000 < beNat ((v.drop 5).take 2) || 1 < beNat (v.drop 7)

/-- A class item (R183). -/
def takeClass (id : Nat) (v : List Byte) (t : Taken) : Taken :=
  if v.length != 8 then t.put id true { t.params with classes := t.params.classes.set (id - 0x40) {} }
  else t.put id (classClamped v) { t.params with classes := t.params.classes.set (id - 0x40) (classEntryOf v) }

/-- A field that is ANY when it reads 0xFF. -/
def anyOr (v : Nat) : Option Nat := if v == 0xFF then none else some v

/-- The entry of a lot item of 14 bytes (R183, Table 5-1). -/
def lotEntryOf (v : List Byte) : LotEntry :=
  let lo := beNat ((v.drop 4).take 4)
  let hi := beNat ((v.drop 8).take 4)
  { valid := true, mfr := if v.take 3 == [0xFF, 0xFF, 0xFF] then none else some (v.take 3),
    mfgYear := anyOr (beNat ((v.drop 3).take 1)),
    serial := if lo == 0xFFFFFFFF && hi == 0xFFFFFFFF then none else some (min lo 999999999, min hi 999999999),
    cls := anyOr (beNat ((v.drop 12).take 1)), condemn := beNat (v.drop 13) == 1 }

/-- A lot item that leaves its entry undefined (R183). -/
def lotBad (v : List Byte) : Bool :=
  let year := beNat ((v.drop 3).take 1)
  let cls := beNat ((v.drop 12).take 1)
  (v.take 3 != [0xFF, 0xFF, 0xFF] && !(v.take 3).all isMfrChar) || (99 < year && year != 0xFF) ||
  (outside 1 8 cls && cls != 0xFF) || 1 < beNat (v.drop 13)

/-- A serial bound that is clamped (R183). -/
def lotClamped (v : List Byte) : Bool :=
  match (lotEntryOf v).serial with
  | none => false
  | some _ => 999999999 < beNat ((v.drop 4).take 4) || 999999999 < beNat ((v.drop 8).take 4)

/-- A lot item (R183). -/
def takeLot (id : Nat) (v : List Byte) (t : Taken) : Taken :=
  if v.length != 14 || lotBad v then t.put id true { t.params with lots := t.params.lots.set (id - 0x50) {} }
  else t.put id (lotClamped v) { t.params with lots := t.params.lots.set (id - 0x50) (lotEntryOf v) }

/-- The plant mark item (R183). -/
def takePlantMark (id : Nat) (v : List Byte) (t : Taken) : Taken :=
  if 2 ≤ v.length && v.length ≤ 6 && v.all isMfrChar then t.put id false { t.params with plantMark := v }
  else t.put id true { t.params with plantMark := ({} : Params).plantMark }

/-- One item, taken by a station of role `r` (R183). -/
def takeItem (r : Role) (t : Taken) (item : Nat × List Byte) : Taken :=
  let id := item.1
  let v := item.2
  if 0x40 ≤ id && id ≤ 0x47 then (if r == .inspect then takeClass id v t else t.skip)
  else if 0x50 ≤ id && id ≤ 0x5F then (if r == .inspect then takeLot id v t else t.skip)
  else if id == 0x1C then (if r == .dispose then takePlantMark id v t else t.skip)
  else
    match (stationItem id).or (headItem id) with
    | some n => if n.role == none || n.role == some r then takeNumber n id v t else t.skip
    | none => t.skip

/-- Every parameter at its default, then the items in image order (R183). -/
def takeItems (r : Role) (items : List (Nat × List Byte)) : Taken :=
  items.foldl (takeItem r) { params := {} }

/-! ### Release -/

/-- The intake unit leaves PURGE (R55): no docket and no fault stands at a release. -/
def purgeExit (s : State) : State :=
  s.withIeu { s.ieu with state := if s.ieu.period.isSome then .ready else .noPeriod }

/-- The role units take their start-up states (R184): PURGE at INSPECT, left at once when INFEED_CLEAR is active (R55);
IDLE or OUT_OF_SERVICE at a head (R90), with its own K as K_eff (R113); READY at DISPOSE (R158). -/
def startRole (r : Role) (seat infeedClear : Bool) (s : State) : State :=
  match r with
  | .inspect =>
    let s1 := s.withIeu { s.ieu with state := .purge }
    if infeedClear then purgeExit s1 else s1
  | .test =>
    let s1 := s.withInputs { s.inputs with seat := seat }
    enterIdle (s1.withAdm { s1.adm with kEff := s1.params.k })
  | .dispose => s

/-- The line interface is released to IDLE_WAIT with its timers started (R18, R25, R26, R184). -/
def releaseLine (s : State) : State :=
  s.withLif { s.lif with state := .idleWait, keepAlive := .running, silence := .running }

/-- The parameters are handed out and the station runs (R183, R184). -/
def takeProfile (r : Role) (items : List (Nat × List Byte)) (seat infeedClear : Bool) (s : State) : State :=
  let t := takeItems r items
  let s1 := (s.withParams t.params).withLoader { s.loader with phase := .running, clamped := t.clamped }
  startRole r seat infeedClear (releaseLine s1)

/-- Checks 4 and 5 of the image, then its items (R182, R183). -/
def checkImage (r : Role) (im : List Byte) (seat infeedClear : Bool) (s : State) : State :=
  if imageByte im 4 != 0#6 ++ s.loader.straps.role then enterFault .profileRole s
  else
    match imageItems im with
    | none => enterFault .profileFormat s
    | some items => takeProfile r items seat infeedClear s

/-- A read of the image completes (R182). -/
def readImage (r : Role) (im : List Byte) (seat infeedClear : Bool) (s : State) : State :=
  let w := imageFormat im
  let l := imageLength im
  if w == 0xFFFF || w == 0 then enterFault .noProfile s
  else if w != 1 then enterFault .profileFormat s
  else if l < 8 || 1024 < l then enterFault .profileFormat s
  else
    let s1 := s.withLoader { s.loader with readCount := s.loader.readCount + 1 }
    if imageCrcOk im then checkImage r im seat infeedClear s1
    else if s1.loader.readCount == 1 then s1
    else enterFault .profileCrc s1

/-- PROFILE_READ_COMPLETE (R182 to R184). -/
def execProfileReadComplete (im : List Byte) (seat infeedClear : Bool) (s : State) : Out :=
  match s.loader.phase, Role.ofCode s.loader.straps.role with
  | .reading, some r => .next (readImage r im seat infeedClear s)
  | _, _ => .next s

/-! ### Lamp -/

/-- LAMP_REPEAT (R185): the lamp sends the code shown. While a reset is held the output keeps its reset value, for which
the spec gives no code: the model sends none, not even 0 (DESIGN CHOICE, log 27). -/
def execLampRepeat (s : State) : Out :=
  if s.loader.phase == .reset then .next s else .next (s.withLamp (some (lampShown s)))

end Sys2Proof.Machine
end

