-- ==== Sys2Proof/Machine/Dispatch.lean ====
section
/-! DEFINITION. The meaning of every command: one arm, one direct call. -/

namespace Sys2Proof.Machine

/-- The effect of a command on everything but the queue. -/
def exec (i : Instr) (s : State) : Host.Outcome State Fault Refusal :=
  match i with
  | .powerOnReset => Sys2Proof.Machine.execPowerOnReset s
  | .pinReset => Sys2Proof.Machine.execPinReset s
  | .resetRelease addr role cellHigh => Sys2Proof.Machine.execResetRelease addr role cellHigh s
  | .profileReadComplete image seat infeedClear => Sys2Proof.Machine.execProfileReadComplete image seat infeedClear s
  | .idleSpan cells => Sys2Proof.Machine.execIdleSpan cells s
  | .callMade read => Sys2Proof.Machine.execCallMade read s
  | .callJoined read => Sys2Proof.Machine.execCallJoined read s
  | .post read => Sys2Proof.Machine.execPost read s
  | .incompleteRoundEnd => Sys2Proof.Machine.execIncompleteRoundEnd s
  | .contention read => Sys2Proof.Machine.execContention read s
  | .messageSend read => Sys2Proof.Machine.execMessageSend read s
  | .acceptFieldRead read => Sys2Proof.Machine.execAcceptFieldRead read s
  | .messageDropped => Sys2Proof.Machine.execMessageDropped s
  | .docketOffer f acceptRead => Sys2Proof.Machine.execDocketOffer f acceptRead s
  | .releaseCall f acceptRead => Sys2Proof.Machine.execReleaseCall f acceptRead s
  | .docketDirect f acceptRead => Sys2Proof.Machine.execDocketDirect f acceptRead s
  | .docketReturn f acceptRead => Sys2Proof.Machine.execDocketReturn f acceptRead s
  | .stationCard f => Sys2Proof.Machine.execStationCard f s
  | .verdictNote f => Sys2Proof.Machine.execVerdictNote f s
  | .roundEnd posts cell263 => Sys2Proof.Machine.execRoundEnd posts cell263 s
  | .pacingExpiry => Sys2Proof.Machine.execPacingExpiry s
  | .keepAliveExpiry => Sys2Proof.Machine.execKeepAliveExpiry s
  | .silenceExpiry order => Sys2Proof.Machine.execSilenceExpiry order s
  | .sampleTick pins sample => Sys2Proof.Machine.execSampleTick pins sample s
  | .responseComplete => Sys2Proof.Machine.execResponseComplete s
  | .estop order => Sys2Proof.Machine.execEstop order s
  | .psw order => Sys2Proof.Machine.execPsw order s
  | .abort order => Sys2Proof.Machine.execAbort order s
  | .lidOpen order => Sys2Proof.Machine.execLidOpen order s
  | .seatActive order => Sys2Proof.Machine.execSeatActive order s
  | .lidClosed order => Sys2Proof.Machine.execLidClosed order s
  | .fillComplete order => Sys2Proof.Machine.execFillComplete order s
  | .loadTimeout order => Sys2Proof.Machine.execLoadTimeout order s
  | .fillTimeout order => Sys2Proof.Machine.execFillTimeout order s
  | .rampTimeout order => Sys2Proof.Machine.execRampTimeout order s
  | .holdTimerExpiry order => Sys2Proof.Machine.execHoldTimerExpiry order s
  | .drainTimerExpiry order => Sys2Proof.Machine.execDrainTimerExpiry order s
  | .urgentFlagSet order => Sys2Proof.Machine.execUrgentFlagSet order s
  | .unloadComplete order => Sys2Proof.Machine.execUnloadComplete order s
  | .unloadTimeout order => Sys2Proof.Machine.execUnloadTimeout order s
  | .clearEdge order => Sys2Proof.Machine.execClearEdge order s
  | .stopReported => Sys2Proof.Machine.execStopReported s
  | .stopEnded => Sys2Proof.Machine.execStopEnded s
  | .infeedClear => Sys2Proof.Machine.execInfeedClear s
  | .readerLine line => Sys2Proof.Machine.execReaderLine line s
  | .period line => Sys2Proof.Machine.execPeriod line s
  | .mass line => Sys2Proof.Machine.execMass line s
  | .find line => Sys2Proof.Machine.execFind line s
  | .close line => Sys2Proof.Machine.execClose line s
  | .cancel line => Sys2Proof.Machine.execCancel line s
  | .clearEntry line => Sys2Proof.Machine.execClearEntry line s
  | .docketJoin => Sys2Proof.Machine.execDocketJoin s
  | .pulseEnd channel => Sys2Proof.Machine.execPulseEnd channel s
  | .terminalReplySent => Sys2Proof.Machine.execTerminalReplySent s
  | .markReaderLine line => Sys2Proof.Machine.execMarkReaderLine line s
  | .linkClear reply => Sys2Proof.Machine.execLinkClear reply s
  | .linkLoad reply => Sys2Proof.Machine.execLinkLoad reply s
  | .linkQuery reply => Sys2Proof.Machine.execLinkQuery reply s
  | .linkStrike reply => Sys2Proof.Machine.execLinkStrike reply s
  | .strikeTimeout => Sys2Proof.Machine.execStrikeTimeout s
  | .punchDone => Sys2Proof.Machine.execPunchDone s
  | .punchTimeout => Sys2Proof.Machine.execPunchTimeout s
  | .laneReleaseEnd => Sys2Proof.Machine.execLaneReleaseEnd s
  | .disposeClear reply => Sys2Proof.Machine.execDisposeClear reply s
  | .arrivalTimeout place => Sys2Proof.Machine.execArrivalTimeout place s
  | .callTimeout => Sys2Proof.Machine.execCallTimeout s
  | .recordLineSent cts => Sys2Proof.Machine.execRecordLineSent s cts
  | .lampRepeat => Sys2Proof.Machine.execLampRepeat s
  | .punchPulseEnd => Sys2Proof.Machine.execPunchPulseEnd s
  | .unknownKeyword line => Sys2Proof.Machine.execUnknownKeyword line s

end Sys2Proof.Machine
end

