-- ==== Sys2Proof/Safety.lean ====
section
/-! DEFINITION. What a good state is: the invariants that the statements are about. -/

namespace Sys2Proof.Machine

/-! ### What a family of commands leaves alone -/

/-- A state with the blocks of a head blanked (inputs, TSQ, MSU, ADM, ILK): what a head's events leave unchanged. -/
def State.outsideHead (s : State) : State := { s with inputs := {}, tsq := {}, msu := {}, adm := {}, ilk := {} }

/-- A state with the blocks of intake blanked (transmit queue, ports, IEU, history). -/
def State.outsideIntake (s : State) : State := { s with txq := [], ports := {}, ieu := {}, history := [] }

/-- A state with the blocks of disposal blanked (inputs, transmit queue, ports, DSU and the model's free counter). -/
def State.outsideDsu (s : State) : State := { s with inputs := {}, txq := [], ports := {}, dsu := {}, freeCount := 0 }

/-- A state with the line interface blanked. -/
def State.outsideLif (s : State) : State := { s with lif := {} }

/-! ### SAFE -/

/-- The test part of a docket once condition `c` has latched in state `h`: the append of R9, and on leaving HOLDING
the hold end stamp and hold_mean (R98, R106). -/
def appendedAt (c : Cause) (h : HeadState) (s : State) (x : TestPart) : TestPart :=
  if h = .holding then { x.append c with holdEnd := some s.roundStamp, holdMean := holdMean s.msu } else x.append c

/-- Condition `c`, the only one latched, has taken the head from state `h` into SAFE (R106, R108, R145 to R147): its
response is in force with the timer at 0, the phase timer stopped and without a count (log 42); during a test the docket's list has the code, the
window is abandoned and the wait is over; outside one the docket is untouched, the gate closed and the state kept to go
back to. Nothing outside the head's blocks changes. -/
def EntersSafe (c : Cause) (h : HeadState) (s t : State) : Prop :=
  t.tsq.state = some .safe ∧ t.tsq.phase = none ∧ t.tsq.lidLock = s.tsq.lidLock ∧
  t.ilk.inForce = some c ∧ t.ilk.latched = [c] ∧ t.ilk.disarmed = s.ilk.disarmed ++ [c] ∧ t.ilk.timer.ticks = 0 ∧
  t.ilk.marks = s.ilk.marks ∧
  (h.inTest = true →
    t.tsq.safeFrom = some h ∧ t.tsq.docket = s.tsq.docket.map (Docket.onTest (appendedAt c h s)) ∧
    t.msu.window = {} ∧ t.adm.waitAge = 0 ∧ t.adm.urgent = false) ∧
  (h.inTest = false →
    t.tsq.safeFrom = none ∧ t.tsq.returnState = some h ∧ t.tsq.gateOpen = false ∧ t.tsq.docket = s.tsq.docket ∧
    t.msu = s.msu) ∧
  t.outsideHead = s.outsideHead

/-- A VENT of a test that completed in the event that took it (R149): nothing is latched or in force, the docket's
list has the code and its verdict is assembled, and the head drains, or waits in DONE when SEAT reads inactive
(R107). -/
def VentedAtOnce (c : Cause) (h : HeadState) (s t : State) : Prop :=
  t.ilk.inForce = none ∧ t.ilk.latched = [] ∧
  t.tsq.docket = s.tsq.docket.map (fun d => d.onTest (fun x => assembleVerdict s.params d (appendedAt c h s x))) ∧
  t.tsq.state = (if s.inputs.seat then some .draining else some .done) ∧
  t.tsq.lidLock = s.inputs.seat ∧ t.msu.window = {} ∧
  t.outsideHead = s.outsideHead

/-- The head is where an entry to IDLE leads it (R92, R109, R152): OUT_OF_SERVICE with ORPHAN when SEAT reads active,
else OUT_OF_SERVICE with the marked condition of lowest code, else IDLE with its age at 0, no cause recorded (log 39). -/
def IdleOrOutOfService (seat : Bool) (marks : List Cause) (t : State) : Prop :=
  let outWith := fun c : Cause => t.tsq.state = some .outOfService ∧ t.tsq.oosCause = some c
  t.tsq.gateOpen = false ∧ t.tsq.lidLock = false ∧
  (seat = true → outWith .orphan) ∧
  (seat = false → .overpressure ∈ marks → outWith .overpressure) ∧
  (seat = false → .overpressure ∉ marks → .pressureSwitch ∈ marks → outWith .pressureSwitch) ∧
  (seat = false → .overpressure ∉ marks → .pressureSwitch ∉ marks → .sensorRange ∈ marks → outWith .sensorRange) ∧
  (seat = false → .overpressure ∉ marks → .pressureSwitch ∉ marks → .sensorRange ∉ marks →
    t.tsq.state = some .idle ∧ t.tsq.idleAge = 0 ∧ t.tsq.oosCause = none)

/-! ### Intake and disposal -/

/-- A letter A to Z or a digit, by its code. -/
def UpperOrDigit (c : Byte) : Prop := (0x41 ≤ c.toNat ∧ c.toNat ≤ 0x5A) ∨ (0x30 ≤ c.toNat ∧ c.toNat ≤ 0x39)

/-- One to seven decimal digits that name a value from `lo` to `hi`. -/
def NumberIn (lo hi : Nat) (t : Text) : Prop :=
  1 ≤ t.length ∧ t.length ≤ 7 ∧ t.all isDigit = true ∧ lo ≤ decValue t ∧ decValue t ≤ hi

/-- The form and the range of field `n` of an intake reader line (Table 4-3). There is no tenth field. -/
def ReaderFieldGood (n : Nat) (t : Text) : Prop :=
  match n with
  | 1 => t.length = 3 ∧ ∀ c ∈ t, UpperOrDigit c
  | 2 => 1 ≤ t.length ∧ t.length ≤ 12 ∧ ∀ c ∈ t, UpperOrDigit c ∨ c = 0x2D
  | 3 => NumberIn 1 8 t
  | 4 => NumberIn 500 45000 t
  | 5 => NumberIn 5 1500 t
  | 6 => NumberIn 50 20000 t
  | 7 => t.length = 5 ∧ (t.take 2).all isDigit = true ∧ t.getD 2 0 = 0x2F ∧ (t.drop 3).all isDigit = true ∧
      1 ≤ decValue (t.take 2) ∧ decValue (t.take 2) ≤ 12
  | 8 => t.length = 2 ∧ t.all isDigit = true
  | 9 => NumberIn 1 1000000 t
  | _ => False

/-- Field `n` of a reader line breaks (R58): the fault of a bad line fell in it, or its form or range breaks, where a
missing field up to the eighth reads empty and one past it does not break. -/
def ReaderFieldBreaks (b : LineBuffer) (n : Nat) : Prop :=
  let fields := readerFields b
  (b.badAt.isSome = true ∧ n = fields.length) ∨
  ((n ≤ 8 ∨ n ≤ fields.length) ∧ ¬ ReaderFieldGood n (fields.getD (n - 1) []))

/-- The state that the intake unit takes when it would enter READY (R55). -/
def readyOrFull (infeed : List Docket) (fault : Bool) : IntakeState :=
  if 8 ≤ infeed.length ∨ fault = true then .infeedFull else .ready

/-- The state of the intake unit once the front docket of its infeed queue has left (R55): INFEED_FULL is left or kept
as the queue and the direct fault give, READY becomes INFEED_FULL while the fault stands. -/
def stateAfterInfeed (u : Ieu) : IntakeState :=
  if u.state = .infeedFull then readyOrFull u.infeed.tail u.directFault
  else if u.state = .ready ∧ u.directFault = true then .infeedFull
  else u.state

/-- A line for port B of the INSPECT station: it waits, unless 4 lines wait already (R60). -/
def repliedWith (r : Reply) (p : Ports) : List Reply :=
  if p.waiting.length < 4 then p.waiting ++ [r] else p.waiting

/-- The evaluated docket `d` has joined its queue (R4, R71): it has its tag and stands at the back, the stage channel
moves its cylinder, the reply waits, and the unit has left INSPECTING. Nothing outside intake changes. -/
def JoinsItsQueue (d : Docket) (s t : State) : Prop :=
  let tagged := { d with tag := some s.ieu.tagCounter }
  let infeed := if d.intent = some .test then s.ieu.infeed ++ [tagged] else s.ieu.infeed
  t.ieu = { s.ieu with
    infeed := infeed
    direct := if d.intent = some .test then s.ieu.direct else s.ieu.direct ++ [tagged]
    stage := if d.intent = some .test then .pulsing .stageIn else .pulsing .stageBy
    tagCounter := if s.ieu.tagCounter = 65535 then 1 else s.ieu.tagCounter + 1
    work := none
    closePending := false
    state := readyOrFull infeed s.ieu.directFault } ∧
  t.ports.waiting = repliedWith (.okJoin s.ieu.tagCounter (d.intent.getD .test) d.reason) s.ports ∧
  t.txq = s.txq ∧ t.outsideIntake = s.outsideIntake

/-- The disposition of the docket in work has been decided (R167, R168, R176, R178): its disposal part is written, its
record line enters the buffer and its note is queued, or the line waits and the docket keeps the slot; the lane phase is
entered, owed while a stop stands. Nothing else changes. -/
def Settled (d : Docket) (disp : Disposition) (cause : Option Cause) (lane : BitVec 2) (s t : State) : Prop :=
  let d1 := { d with disposal := some { disposition := disp, cause := cause } }
  let phase := if s.dsu.stopCopy then ActionPhase.laneOwed else .lane
  let bad := match d.test with | some x => x.verdict == .invalid | none => false
  let note : Note := { hash := d.hash, disposition := disp, invalid := disp == .returned && bad, tag := d.tag.getD 0 }
  let msg : TxMsg := { kind := .verdictNote, dest := 0xFF, body := noteBody note }
  let inBuffer := { s.dsu with
    lane := lane
    recBuffer := s.dsu.recBuffer ++ [.docket d1]
    work := some { item := .finished, phase := phase } }
  let waiting := { s.dsu with
    lane := lane
    recWaiters := s.dsu.recWaiters ++ [{ line := .docket d1, source := .work }]
    work := some { item := .docket d1, phase := phase } }
  (s.dsu.recBuffer.length < 4 →
    t = { s with dsu := inBuffer, txq := if s.txq.length < 4 then insertMsg msg s.txq else s.txq }) ∧
  (4 ≤ s.dsu.recBuffer.length → t = { s with dsu := waiting })

/-- The disposal unit `d` of a round's end at `s` whose update left the table of `t`: when the table keeps the card that
came in the round, its line has been produced (R53, R176), into the buffer while it has room, else among the waiters,
where it takes the place of a waiting line of the same address (R177; log 38). -/
def KeptCardLine (s t : State) (d : Dsu) : Prop :=
  let kept := fun a c => s.lif.round.cardFrom = some a ∧ (t.entry a).card = some c
  ((∀ a c, ¬ kept a c) → d = s.dsu) ∧
  ∀ a c, kept a c →
    (s.dsu.recBuffer.length < 4 → d = { s.dsu with recBuffer := s.dsu.recBuffer ++ [.card a c] }) ∧
    (4 ≤ s.dsu.recBuffer.length → (∀ w ∈ s.dsu.recWaiters, w.source ≠ .card a) →
      d = { s.dsu with recWaiters := s.dsu.recWaiters ++ [{ line := .card a c, source := .card a }] }) ∧
    (4 ≤ s.dsu.recBuffer.length → (∃ w ∈ s.dsu.recWaiters, w.source = .card a) →
      d = { s.dsu with recWaiters := s.dsu.recWaiters.map fun w =>
        if w.source = .card a then { line := .card a c, source := .card a } else w })

/-- The transmit queue `q` that a round's end makes of the queue of `s`, ahead of the decisions of the role: the
station's card is queued after its first complete round and when an address newly appears, unless one is queued or there
is no place (R36, R46); and then the message that contended waits one round more (R47). -/
def RoundEndQueue (role : Role) (posts : List PostWord) (s : State) (q : List TxMsg) : Prop :=
  let appears := ∃ a : Addr, a ≠ s.ownAddr ∧ (s.entry a).view = .absent ∧
    ∃ v, classifyPost (posts.getD a.toNat (BitVec.allOnes 16)) = .intact v
  let queued := ∃ m ∈ s.txq, m.kind = .stationCard
  let card : TxMsg := { kind := .stationCard, dest := 0xFF, body := cardBody (ownCard role s) }
  let waited := List.map fun m : TxMsg =>
    if m.contending then { m with wait := min 15 (m.wait + 1), contending := false, withdraw := false } else m
  ((s.lif.joined = false ∨ appears) → ¬ queued → s.txq.length < 4 → s.lif.roleConflict = false →
    q = waited (insertMsg card s.txq)) ∧
  ((s.lif.joined = true ∧ ¬ appears) ∨ queued ∨ 4 ≤ s.txq.length ∨ s.lif.roleConflict = true → q = waited s.txq)

/-- The verdict note of a docket with disposition `p` (R54, R178), at its place in the transmit queue of `s`; a full queue
drops it (R46). -/
def notedQueue (d : Docket) (p : DisposalPart) (s : State) : List TxMsg :=
  let bad := match d.test with | some x => x.verdict == .invalid | none => false
  let note : Note := { hash := d.hash, disposition := p.disposition
                       invalid := p.disposition == .returned && bad, tag := d.tag.getD 0 }
  if s.txq.length < 4 then insertMsg { kind := .verdictNote, dest := 0xFF, body := noteBody note } s.txq else s.txq

/-! ### Dockets on the wire -/

/-- The test part that a return carries, as R8 to R10 leave it: from `sender`, a cause exactly with a verdict other than
PASS, NOT_TESTED exactly without a cylinder, at most 3 distinct condition codes and none with E_t, the expansion fields
as far as the arithmetic ran, ratio and E_e the two that R139 computes from E_t and E_p. -/
def TestPart.Sendable (sender : Addr) (x : TestPart) : Prop :=
  x.head = sender ∧ x.peak < 65536 ∧
  (x.noCylinder = true ↔ x.verdict = .notTested) ∧
  (x.cause.isSome = true ↔ x.verdict ≠ .pass) ∧ (∀ c, x.cause = some c → c.code ≤ 21) ∧
  (∀ v, x.zeroStamp = some v ∨ x.holdStart = some v ∨ x.holdEnd = some v ∨ x.holdMean = some v → v < 65536) ∧
  x.holdEnd.isSome = x.holdMean.isSome ∧
  x.conditions.length ≤ 3 ∧ x.conditions.Nodup ∧ (∀ c ∈ x.conditions, c.code ≤ 14) ∧
  (x.et.isSome = true → x.conditions = []) ∧ (x.ep.isSome = true → x.et.isSome = true) ∧
  (∀ v, x.et = some v ∨ x.ep = some v → -8388608 ≤ v ∧ v < 8388608) ∧
  (x.ratio = none → x.ee = none) ∧
  (∀ q, x.ratio = some q → ∃ e p : Nat, x.et = some (e : Int) ∧ x.ep = some (p : Int) ∧ 0 < e ∧ p ≤ e ∧
    q = p * 10000 / e ∧ x.ee = some ((e : Int) - p))

/-- A docket that a message of kind `k` from `sender` carries (R15): every field in the range of its table, and the
parts that the kind has. -/
def Docket.Sendable (k : MsgKind) (sender : Addr) (d : Docket) : Prop :=
  (∃ n, d.tag = some n ∧ n < 65536) ∧
  d.mfr.length = 3 ∧ (∀ c ∈ d.mfr, UpperOrDigit c) ∧
  1 ≤ d.serial.length ∧ d.serial.length ≤ 12 ∧ (∀ c ∈ d.serial, UpperOrDigit c ∨ c = 0x2D) ∧
  d.hash = identityHash d.mfr d.serial ∧ 1 ≤ d.cls ∧ d.cls ≤ 8 ∧
  500 ≤ d.testPressure ∧ d.testPressure ≤ 45000 ∧ 5 ≤ d.waterCapacity ∧ d.waterCapacity ≤ 1500 ∧
  50 ≤ d.tare ∧ d.tare ≤ 20000 ∧ (∀ v, d.ree = some v → 1 ≤ v ∧ v ≤ 1000000) ∧
  (∀ v, d.ratioLimit = some v → 100 ≤ v ∧ v ≤ 2000) ∧ (∀ v, d.holdTime = some v → 10 ≤ v ∧ v ≤ 300) ∧
  d.ratioLimit.isSome = d.holdTime.isSome ∧
  1 ≤ d.lastMonth ∧ d.lastMonth ≤ 12 ∧ d.lastYear ≤ 99 ∧ d.mfgYear ≤ 99 ∧
  (∃ p, d.period = some p ∧ 1 ≤ p.month ∧ p.month ≤ 12 ∧ 2000 ≤ p.year ∧ p.year ≤ 2099) ∧
  (∃ v, d.mass = some v ∧ 1 ≤ v ∧ v ≤ 30000) ∧ (∃ v, d.massLoss = some v ∧ v ≤ 10000) ∧
  d.findings.length ≤ 6 ∧ (∀ v, d.lotEntry = some v → v ≤ 15) ∧
  (∀ c, d.reason = some c → 32 ≤ c.code ∧ c.code ≤ 41) ∧ (∀ x, d.test = some x → x.Sendable sender) ∧
  (match k with
   | .docketOffer => d.test = none ∧ d.lotEntry = none ∧ d.reason = none ∧ d.intent = some .test ∧
       d.ratioLimit.isSome = true ∧ ∀ f ∈ d.findings, f.severity.isSome = true
   | .docketDirect => d.test = none ∧ d.reason.isSome = true ∧ d.intent.isSome = true ∧ d.intent ≠ some .test ∧
       ∀ f ∈ d.findings, f.severity.isSome = true
   | .docketReturn => d.test.isSome = true ∧ d.lotEntry = none ∧ d.reason = none ∧ d.intent = some .test ∧
       d.ratioLimit.isSome = true
   | _ => False)

/-- The test part as its receiver holds it: the readings stay at the head (R15). -/
def TestPart.received (x : TestPart) : TestPart :=
  { x with s0 := none, st := none, sp := none, t0 := none, tt := none, tp := none }

/-- A docket as the receiver of a message of kind `k` holds it (R15): a return brings finding codes without severities,
and no disposal part travels. -/
def Docket.received (k : MsgKind) (d : Docket) : Docket :=
  { d with
    findings := if k = .docketReturn then d.findings.map (fun f => { f with severity := none }) else d.findings
    test := d.test.map TestPart.received
    disposal := none }

/-! ### Invariants -/

/-- Every queue and table stays within its capacity (R13, R46, R60, R66, R76, R159, R176): the two tables have their
sixteen places, and an outstanding call has its reserved place in the arrival queue. -/
def WithinCapacity (s : State) : Prop :=
  s.txq.length ≤ Config.txCap ∧
  s.ieu.infeed.length ≤ Config.infeedCap ∧
  s.ieu.direct.length ≤ Config.directCap ∧
  s.ieu.findings.length ≤ 6 ∧
  s.dsu.arrival.length + (if s.dsu.call.isSome then 1 else 0) ≤ Config.arrivalCap ∧
  s.dsu.recBuffer.length ≤ Config.recordCap ∧
  s.ports.waiting.length ≤ Config.replyCap ∧
  s.pvt.length = 16 ∧
  s.history.length = 16

/-- The condition list of a test part holds at most 3 codes, all distinct, and excludes the expansion fields, of which
none stands without E_t (R8, R9, R139). -/
def TestPart.ConditionsFit (x : TestPart) : Prop :=
  x.conditions.length ≤ 3 ∧ x.conditions.Nodup ∧
  (x.conditions ≠ [] ∨ x.et = none → x.et = none ∧ x.ep = none ∧ x.ee = none ∧ x.ratio = none)

/-- The docket in the head's slot carries a fit condition list (R9). -/
def SlotConditionsFit (s : State) : Prop :=
  ∀ d x, s.tsq.docket = some d → d.test = some x → x.ConditionsFit

/-- At most one valid way of a set holds a given hash (R80). -/
def HistSet.OneWayPerHash (x : HistSet) : Prop :=
  ¬ (x.way0.valid = true ∧ x.way1.valid = true ∧ x.way0.hash = x.way1.hash)

/-- The stores are well kept: the queues and tables within their capacities, the condition list of the docket under
test fit, each set of the history with one way per hash (R9, R13, R80). -/
def StoresWellKept (s : State) : Prop :=
  WithinCapacity s ∧ SlotConditionsFit s ∧ ∀ x ∈ s.history, x.OneWayPerHash

/-- The transmit queue stands in contention-key order (R46). -/
def QueueOrdered (s : State) : Prop := s.txq.Pairwise fun x y => x.kind.order ≤ y.kind.order

/-- No two dockets of the arrival queue have the same identity (R159). -/
def ArrivalDistinct (s : State) : Prop :=
  s.dsu.arrival.Pairwise fun x y => ¬ (x.docket.mfr = y.docket.mfr ∧ x.docket.serial = y.docket.serial)

/-- The docket in work is for test and its verdict is PASS. -/
def Dsu.workPassed (d : Dsu) : Prop :=
  ∃ x t, d.workDocket = some x ∧ x.intent = some .test ∧ x.test = some t ∧ t.verdict = .pass

/-- A record line of the docket in work waits for the buffer (R176). -/
def Dsu.workLines (d : Dsu) : List Waiter := d.recWaiters.filter fun w => w.source == .work

/-- A waiting line of the work slot is the only one, and its docket keeps the slot while the lane movement is made or
over (R168, R176). -/
def WorkLineKeepsSlot (s : State) : Prop :=
  s.dsu.workLines.length ≤ 1 ∧
  (s.dsu.workLines ≠ [] →
    s.dsu.workDocket.isSome = true ∧
    (s.dsu.inPhase .lane || s.dsu.inPhase .laneOwed || s.dsu.inPhase .gone) = true)

/-- The marking sequence runs only for a docket in work whose verdict is PASS (R167). -/
def MarksPassedOnly (s : State) : Prop :=
  (∀ m, s.dsu.inPhase (.marking m) = true → s.dsu.workPassed) ∧ WorkLineKeepsSlot s

/-- The ages a head posts stay within their fields (R29). -/
def AgesBounded (s : State) : Prop := s.tsq.idleAge ≤ 63 ∧ s.tsq.doneAge ≤ 31 ∧ s.adm.waitAge ≤ 31

/-- The interlock unit and the sequencer agree (R106 to R108, R144, R147, R151): a response is in force exactly in
SAFE; nothing latched ranks above it, so with none in force nothing is latched; SAFE knows the test state it was entered from, or a state to go back to;
before the release the head has no state and no response. -/
def SafeMatchesResponse (s : State) : Prop :=
  (s.tsq.state = some .safe ↔ s.ilk.inForce.isSome = true) ∧
  (∀ c ∈ s.ilk.latched, ∃ f, s.ilk.inForce = some f ∧ f.code ≤ c.code) ∧
  (s.tsq.state = some .safe → s.tsq.safeFrom.isSome = true ∨
    s.tsq.returnState ∈ [some .idle, some .done, some .unloading, some .outOfService]) ∧
  (s.loader.phase ≠ .running → s.tsq.state = none)

end Sys2Proof.Machine
end

