-- ==== Sys2Proof/Certificates/Slice0/Obligations.lean ====
section
/-! DEFINITION. The statements for the provers, family by family. -/

section
open Sys2Proof Sys2Proof.Machine

/-! ### The step and the invariants -/

/-- O1. The step runs the command at the front of the queue with the queue's rest; on an empty queue the part idles
(the model's choice, log 2). -/
def Obligations.StepRunsFrontCommand : Prop :=
  (∀ (c : Instr) (rest : List Instr) (s : State),
    step { s with pending := c :: rest } = exec c { s with pending := rest }) ∧
  (∀ s : State, s.pending = [] → step s = .next s)

/-- O2. Every command answers a next state, in every state, and leaves the queue of commands as it is: the model's
choices, that a command which its state does not let happen changes nothing (log 1) and that commands wait in a queue
(log 2). What each command does beside that the other statements say. -/
def Obligations.EveryCommandAnswersAState : Prop :=
  ∀ (c : Instr) (s : State), ∃ t, exec c s = .next t ∧ t.pending = s.pending

/-- O3. What the spec says of the part right after a POWER_ON reset, block by block. The zero figures of the empty window
(R142 says only that it is empty) and the armed flags, which the spec gives at the release alone (R88, R144), are the
model's choice (log 5), the empty queue of commands is the model's own (log 2). -/
def Obligations.ResetHoldsTheSpecValues : Prop :=
  let s := State.reset
  (s.loader.phase = .reset ∧ s.loader.cause = .powerOn ∧ s.loader.fault = none) ∧
  (s.lif.state = .off ∧ s.lif.mode = .quiet ∧ s.lif.lineSilent = false ∧ s.lif.roundCounter = 0 ∧
    s.lif.rxBuffer = none ∧ s.lif.roleConflict = false ∧ s.txq = []) ∧
  (∀ a : Addr, (s.entry a).view = .absent ∧ (s.entry a).lastIntact = 0 ∧ (s.entry a).card = none) ∧
  (s.ports.lineA.chars = [] ∧ s.ports.lineB.chars = [] ∧ s.ports.waiting = []) ∧
  (s.ieu.work = none ∧ s.ieu.infeed = [] ∧ s.ieu.direct = [] ∧ s.ieu.period = none ∧ s.ieu.tagCounter = 1 ∧
    s.ieu.directFault = false ∧ s.ieu.stall = 0 ∧ s.ieu.stage = .idle ∧ s.ieu.infeedCh = .idle ∧
    s.ieu.bypass = .idle ∧ s.ieu.route = 0 ∧ intakeReady s = false ∧ ∀ p, pulseActive s p = false) ∧
  (∀ h : BitVec 16, ∀ one : Bool, (historySet s.history h).way one =
      { valid := false, hash := 0, disposition := .held, invalidCount := 0, stamp := 0 } ∧
    (historySet s.history h).lru1 = false) ∧
  ((headOutputs s).fillV = false ∧ (headOutputs s).jacketV = false ∧ (headOutputs s).pressV = false ∧
    (headOutputs s).ventV = true ∧ (headOutputs s).tripV = true ∧ (headOutputs s).drainV = false ∧
    (headOutputs s).lidLock = false ∧ (headOutputs s).unloadGate = false ∧ (headOutputs s).pumpDemand = false) ∧
  (s.tsq.state = none ∧ s.tsq.gateFlag = false ∧ s.tsq.caller = none ∧ s.tsq.returnState = none ∧
    s.tsq.oosCause = none ∧ s.tsq.idleAge = 0 ∧ s.tsq.doneAge = 0 ∧ s.tsq.docket = none) ∧
  (s.adm.waitAge = 0 ∧ s.adm.urgent = false ∧ s.adm.mismatch = none) ∧
  (s.msu.levelRail = false ∧ s.msu.pressRail = false ∧ s.msu.tempRail = false ∧ s.msu.pressure = none ∧
    s.msu.window.count = 0 ∧ s.msu.window.levelSum = 0 ∧ s.msu.window.tempSum = 0 ∧ s.msu.window.crossings = 0 ∧
    s.msu.window.failures = 0 ∧ s.msu.limits = none ∧ s.msu.holdSum = 0 ∧ s.msu.holdCount = 0) ∧
  (s.ilk.latched = [] ∧ s.ilk.inForce = none ∧ s.ilk.timer.ticks = 0 ∧ s.ilk.marks = [] ∧ s.ilk.disarmed = [] ∧
    s.ilk.pswArmed = false ∧ s.ilk.abortArmed = false ∧ s.ilk.clearArmed = false ∧ s.ilk.stopFlag = false) ∧
  (s.dsu.arrival = [] ∧ s.dsu.work = none ∧ s.dsu.call = none ∧ s.dsu.halt = none ∧ s.dsu.stopCopy = false ∧
    s.dsu.recBuffer = [] ∧ s.dsu.recWaiters = [] ∧ s.dsu.punchPulse = false ∧ s.dsu.lane = 0 ∧
    laneRelease s = false ∧ markReady s = false ∧ markClock s = true ∧ markDataReleased s = true) ∧
  s.pending = []

/-- O4. The invariants of the statements that follow hold at reset. -/
def Obligations.InvariantsHoldAtReset : Prop :=
  StoresWellKept State.reset ∧ QueueOrdered State.reset ∧ ArrivalDistinct State.reset ∧
  MarksPassedOnly State.reset ∧ AgesBounded State.reset ∧ SafeMatchesResponse State.reset

/-- O5. Every step keeps the stores well: every queue, buffer and table within its capacity, the place that a call
reserves included; the condition list of the docket under test at most 3 codes, distinct, and exclusive of the expansion
fields; at most one valid way of a history set for each hash. -/
def Obligations.StoresStayWellKept : Prop :=
  ∀ s t : State, StoresWellKept s → step s = .next t → StoresWellKept t

/-- O6. Every step keeps the transmit queue in contention-key order. -/
def Obligations.QueueOrderKept : Prop :=
  ∀ s t : State, QueueOrdered s → step s = .next t → QueueOrdered t

/-- O7. Every step keeps the identities in the arrival queue distinct. -/
def Obligations.ArrivalIdentitiesKept : Prop :=
  ∀ s t : State, ArrivalDistinct s → step s = .next t → ArrivalDistinct t

/-- O8. Every step keeps it so that the marking sequence runs only for a docket for test whose verdict is PASS. -/
def Obligations.OnlyPassedAreMarked : Prop :=
  ∀ s t : State, MarksPassedOnly s → step s = .next t → MarksPassedOnly t

/-- O9. Every step keeps the posted ages at or below their maxima. -/
def Obligations.AgesStayBounded : Prop :=
  ∀ s t : State, AgesBounded s → step s = .next t → AgesBounded t

/-- O10. Every step keeps the interlock unit and the sequencer in agreement: a response is in force exactly in SAFE, and
nothing latched ranks above it. -/
def Obligations.SafeAndResponseAgree : Prop :=
  ∀ s t : State, SafeMatchesResponse s → step s = .next t → SafeMatchesResponse t

/-! ### Start-up -/

/-- O11. Both resets. POWER_ON leaves the reset state; PIN leaves it too, but for the reset cause and the serial
history, which is kept with its stamps at 0. A PIN event while a POWER_ON reset is held changes nothing (log 24). The
queue of commands and the model's free counter are not the part's. -/
def Obligations.ResetsClearTheStation : Prop :=
  (∀ s : State, exec .powerOnReset s =
    .next { State.reset with freeCount := s.freeCount, pending := s.pending }) ∧
  (∀ s : State, ¬ (s.loader.phase = .reset ∧ s.loader.cause = .powerOn) →
    exec .pinReset s = .next
      { State.reset with
        loader := { State.reset.loader with cause := .pin }
        history := s.history.map fun x =>
          { x with way0 := { x.way0 with stamp := 0 }, way1 := { x.way1 with stamp := 0 } }
        freeCount := s.freeCount
        pending := s.pending }) ∧
  (∀ s : State, s.loader.phase = .reset → s.loader.cause = .powerOn → exec .pinReset s = .next s)

/-- O12. The release of a reset samples the straps once; ROLE 11 gives STARTUP_FAULT with code 59. A profile image that is
read is checked in order, and a failed check leaves STARTUP_FAULT with its code, the first CRC failure a second read.
That reads are counted at the CRC check, that the second read makes every check again and that a short image reads 0xFF
past its end are the model's (log 17). -/
def Obligations.StrapsAndProfileChecks : Prop :=
  (∀ (a : Addr) (r : BitVec 2) (high : Bool) (s : State),
      (s.loader.phase = .reset → r = 3 →
        exec (.resetRelease a r high) s = .next
          { s with loader := { s.loader with
              straps := { addr := a, role := r, cellHigh := high }, phase := .startupFault, fault := some .roleStrap } }) ∧
      (s.loader.phase = .reset → r ≠ 3 →
        exec (.resetRelease a r high) s = .next
          { s with loader := { s.loader with
              straps := { addr := a, role := r, cellHigh := high }, phase := .reading, readCount := 0 } }) ∧
      (s.loader.phase ≠ .reset → exec (.resetRelease a r high) s = .next s) ∧
      (Cause.roleStrap.code = 59)) ∧
  (∀ (r : Role) (im : List Byte) (seat clear : Bool) (s : State),
      s.loader.phase = .reading → Role.ofCode s.loader.straps.role = some r →
      let run := exec (.profileReadComplete im seat clear) s
      let failed := fun (c : Cause) (reads : Nat) =>
        (.next { s with loader := { s.loader with phase := .startupFault, fault := some c, readCount := reads } } : Out)
      let reads := s.loader.readCount
      (imageFormat im = 0xFFFF ∨ imageFormat im = 0 → run = failed .noProfile reads) ∧
      (imageFormat im ≠ 0xFFFF → imageFormat im ≠ 0 → imageFormat im ≠ 1 → run = failed .profileFormat reads) ∧
      (imageFormat im = 1 → (imageLength im < 8 ∨ 1024 < imageLength im) → run = failed .profileFormat reads) ∧
      (imageFormat im = 1 → 8 ≤ imageLength im → imageLength im ≤ 1024 →
        (imageCrcOk im = false → reads = 0 →
          run = .next { s with loader := { s.loader with readCount := 1 } }) ∧
        (imageCrcOk im = false → reads ≠ 0 → run = failed .profileCrc (reads + 1)) ∧
        (imageCrcOk im = true → imageByte im 4 ≠ 0#6 ++ s.loader.straps.role →
          run = failed .profileRole (reads + 1)) ∧
        (imageCrcOk im = true → imageByte im 4 = 0#6 ++ s.loader.straps.role → imageItems im = none →
          run = failed .profileFormat (reads + 1))))

/-- O13. A good image starts the station: its parameters are taken (R183; a second or a bad item: log 18; a second read
and a short image: log 17), the line interface is released to IDLE_WAIT with its timers, and the role's unit takes its
start-up state, a head's by the SEAT level and INSPECT's by the INFEED_CLEAR level that the command carries (log 6). That
the serial history stays as the reset left it in the role TEST or DISPOSE too is the model's choice (log 24), and so is
that IDLE records no cause of OUT_OF_SERVICE (log 39). -/
def Obligations.GoodProfileStartsTheStation : Prop :=
  ∀ (r : Role) (im : List Byte) (items : List (Nat × List Byte)) (seat clear : Bool) (s : State),
    s.loader.phase = .reading → Role.ofCode s.loader.straps.role = some r →
    imageFormat im = 1 → 8 ≤ imageLength im → imageLength im ≤ 1024 → imageCrcOk im = true →
    imageByte im 4 = 0#6 ++ s.loader.straps.role → imageItems im = some items →
    ∃ t, exec (.profileReadComplete im seat clear) s = .next t ∧
      t.loader = { s.loader with phase := .running, clamped := (takeItems r items).clamped,
                                 readCount := s.loader.readCount + 1 } ∧
      t.params = (takeItems r items).params ∧
      t.lif = { s.lif with state := .idleWait, keepAlive := .running, silence := .running } ∧
      (t.txq = s.txq ∧ t.pvt = s.pvt ∧ t.history = s.history ∧ t.dsu = s.dsu ∧ t.ports = s.ports ∧ t.msu = s.msu ∧
        t.ilk = s.ilk) ∧
      (r = .inspect → t.tsq = s.tsq ∧ t.adm = s.adm ∧
        t.ieu = { s.ieu with state := if !clear then .purge else if s.ieu.period.isSome then .ready else .noPeriod }) ∧
      (r = .test → t.ieu = s.ieu ∧ t.inputs.seat = seat ∧ t.adm.kEff = t.params.k ∧ t.tsq.docket = s.tsq.docket ∧
        IdleOrOutOfService seat s.ilk.marks t) ∧
      (r = .dispose → t.ieu = s.ieu ∧ t.tsq = s.tsq ∧ t.adm = s.adm)

/-- O14. The items of the profile. A numeric item of the station's role, or of all roles, writes its value clamped to the
nearer limit of its range, each into the parameter that Table 11-3 names it for; a class item writes its entry, each
field clamped; a lot item writes its entry, but for a bad one; the plant mark its two to six characters. A bad item, or
one of a wrong width, leaves its parameter at its default and its entry undefined, an earlier item for the same place
included (DEDUCED, log 18); what the other fields of an undefined entry hold is the model's choice (log 41). A clamped
value, a bad item, a second item and one that is not the station's set the status CLAMPED; the last writes nothing. -/
def Obligations.ProfileItemsAreTaken : Prop :=
  ([(0x01, none, 20, 200, 40), (0x02, none, 500, 5000, 1000), (0x10, some Role.inspect, 12, 1152, 96),
    (0x11, some .inspect, 12, 1152, 96), (0x12, some .inspect, 0, 500, 50), (0x13, some .inspect, 0, 6, 3),
    (0x18, some .dispose, 12, 1152, 96), (0x19, some .dispose, 12, 1152, 96), (0x1A, some .dispose, 10, 600, 120),
    (0x1B, some .dispose, 5, 60, 20), (0x20, some .test, 500, 45000, 500), (0x21, some .test, 5, 1500, 5),
    (0x22, some .test, 1, 4, 1), (0x23, some .test, 5, 300, 60), (0x24, some .test, 10, 600, 240),
    (0x25, some .test, 10, 300, 90), (0x26, some .test, 5, 120, 20), (0x27, some .test, 5, 120, 45),
    (0x28, some .test, 5, 600, 30), (0x29, some .test, 5, 120, 10), (0x2A, some .test, 10, 200, 50),
    (0x2B, some .test, 0, 32767, 0), (0x2C, some .test, 1, 65535, 4096), (0x2D, some .test, 0, 65535, 0),
    (0x2E, some .test, 1, 65535, 4096), (0x2F, some .test, 0, 63, 10), (0x30, some .test, 1, 4096, 8),
    (0x31, some .test, 10, 50, 30), (0x32, some .test, 50, 150, 100), (0x33, some .test, 2, 50, 10),
    (0x34, some .test, 1, 65535, 2048), (0x35, some .test, 0, 65535, 0), (0x36, some .test, 10, 100000, 100),
    (0x37, some .test, 0, 500, 100)] : List (Nat × Option Role × Nat × Nat × Nat)).all
      (fun row => ((stationItem row.1).or (headItem row.1)).map (fun n => (n.role, n.lo, n.hi, n.dflt)) == some row.2)
    = true ∧
  (∀ (id : Nat) (n : NumItem), (stationItem id).or (headItem id) = some n → n.put {} n.dflt = {}) ∧
  (∀ (p : Params) (v : Nat),
    ∀ row ∈ ([(0x01, { p with pacingGap := v }), (0x02, { p with keepAlive := v }), (0x10, { p with rdrRate := v }),
      (0x11, { p with trmRate := v }), (0x12, { p with residualLimit := v }), (0x13, { p with earlyWindow := v }),
      (0x18, { p with mrkRate := v }), (0x19, { p with recRate := v }), (0x1A, { p with arrivalTime := v }),
      (0x1B, { p with callTime := v }), (0x20, { p with ratingKpa := v }), (0x21, { p with capacity := v }),
      (0x22, { p with k := v }), (0x23, { p with loadTime := v }), (0x24, { p with fillTime := v }),
      (0x25, { p with rampTime := v }), (0x26, { p with drainTime := v }), (0x27, { p with unloadTime := v }),
      (0x28, { p with rampPatience := v }), (0x29, { p with tripDwell := v }), (0x2A, { p with ventDone := v }),
      (0x2B, { p with pOff := v }), (0x2C, { p with pGain := v }), (0x2D, { p with tOff := v }),
      (0x2E, { p with tGain := v }), (0x2F, { p with settleSkip := v }), (0x30, { p with tStab := v }),
      (0x31, { p with bandPm := v }), (0x32, { p with condPm := v }), (0x33, { p with dropPm := v }),
      (0x34, { p with gB := v }), (0x35, { p with cT := v }), (0x36, { p with eTMin := v }),
      (0x37, { p with nUnder := v })] : List (Nat × Params)),
    ((stationItem row.1).or (headItem row.1)).map (fun n => n.put p v) = some row.2) ∧
  (∀ (r : Role) (t : Taken) (id : Nat) (v : List Byte) (n : NumItem), (stationItem id).or (headItem id) = some n →
    ((n.role = none ∨ n.role = some r) → v.length ≤ 4 →
      (takeItem r t (id, v)).params = n.put t.params (max n.lo (min n.hi (beNat v))) ∧
      ((takeItem r t (id, v)).clamped = true ↔
        t.clamped = true ∨ beNat v < n.lo ∨ n.hi < beNat v ∨ id ∈ t.seen) ∧
      (takeItem r t (id, v)).seen = id :: t.seen) ∧
    ((n.role = none ∨ n.role = some r) → 4 < v.length →
      takeItem r t (id, v) = { params := n.put t.params n.dflt, clamped := true, seen := id :: t.seen }) ∧
    (n.role ≠ none → n.role ≠ some r → takeItem r t (id, v) = { t with clamped := true })) ∧
  (∀ (r : Role) (t : Taken) (i : Nat) (v : List Byte), i < 8 →
    let id := 0x40 + i
    let run := takeItem r t (id, v)
    let wrote := fun e : ClassEntry => run.params = { t.params with classes := t.params.classes.set i e }
    let interval := beNat (v.take 1)
    let hold := beNat ((v.drop 1).take 2)
    let limit := beNat ((v.drop 3).take 2)
    let loss := beNat ((v.drop 5).take 2)
    let ree := beNat (v.drop 7)
    (r = .inspect → v.length = 8 →
      wrote { defined := true, intervalYears := max 1 (min 15 interval), holdTime := max 10 (min 300 hold)
              ratioLimit := max 100 (min 2000 limit), massLossLimit := min 10000 loss
              reeApplies := decide (ree ≠ 0) } ∧
      (run.clamped = true ↔ t.clamped = true ∨ id ∈ t.seen ∨ interval < 1 ∨ 15 < interval ∨ hold < 10 ∨ 300 < hold ∨
        limit < 100 ∨ 2000 < limit ∨ 10000 < loss ∨ 1 < ree) ∧ run.seen = id :: t.seen) ∧
    (r = .inspect → v.length ≠ 8 → wrote {} ∧ run.clamped = true ∧ run.seen = id :: t.seen) ∧
    (r ≠ .inspect → run = { t with clamped := true })) ∧
  (∀ (r : Role) (t : Taken) (i : Nat) (v : List Byte), i < 16 →
    let id := 0x50 + i
    let run := takeItem r t (id, v)
    let wrote := fun e : LotEntry => run.params = { t.params with lots := t.params.lots.set i e }
    let mfr := v.take 3
    let year := beNat ((v.drop 3).take 1)
    let low := beNat ((v.drop 4).take 4)
    let high := beNat ((v.drop 8).take 4)
    let cls := beNat ((v.drop 12).take 1)
    let action := beNat (v.drop 13)
    let anyMfr := mfr = [0xFF, 0xFF, 0xFF]
    let anySerial := low = 0xFFFFFFFF ∧ high = 0xFFFFFFFF
    let bad := (¬ anyMfr ∧ ¬ ∀ c ∈ mfr, UpperOrDigit c) ∨ (99 < year ∧ year ≠ 0xFF) ∨
      ((cls < 1 ∨ 8 < cls) ∧ cls ≠ 0xFF) ∨ 1 < action
    (r = .inspect → v.length = 14 → ¬ bad →
      wrote { valid := true, mfr := if anyMfr then none else some mfr
              mfgYear := if year = 0xFF then none else some year
              serial := if anySerial then none else some (min low 999999999, min high 999999999)
              cls := if cls = 0xFF then none else some cls
              condemn := decide (action = 1) } ∧
      (run.clamped = true ↔ t.clamped = true ∨ id ∈ t.seen ∨
        (¬ anySerial ∧ (999999999 < low ∨ 999999999 < high))) ∧ run.seen = id :: t.seen) ∧
    (r = .inspect → v.length ≠ 14 ∨ bad → wrote {} ∧ run.clamped = true ∧ run.seen = id :: t.seen) ∧
    (r ≠ .inspect → run = { t with clamped := true })) ∧
  (∀ (r : Role) (t : Taken) (v : List Byte),
    let run := takeItem r t (0x1C, v)
    let good := 2 ≤ v.length ∧ v.length ≤ 6 ∧ ∀ c ∈ v, UpperOrDigit c
    (r = .dispose → good → run.params = { t.params with plantMark := v } ∧
      (run.clamped = true ↔ t.clamped = true ∨ 0x1C ∈ t.seen) ∧ run.seen = 0x1C :: t.seen) ∧
    (r = .dispose → ¬ good → run.params = { t.params with plantMark := ascii "RQ" } ∧ run.clamped = true ∧
      run.seen = 0x1C :: t.seen) ∧
    (r ≠ .dispose → run = { t with clamped := true })) ∧
  (∀ (r : Role) (t : Taken) (id : Nat) (v : List Byte), (stationItem id).or (headItem id) = none →
    ¬ (0x40 ≤ id ∧ id ≤ 0x47) → ¬ (0x50 ≤ id ∧ id ≤ 0x5F) → id ≠ 0x1C →
    takeItem r t (id, v) = { t with clamped := true })

/-- O15. LAMP_REPEAT sends the code shown, and the code shown is the first that stands in the role's order. While a reset
is held nothing is sent (the model's choice, log 27). -/
def Obligations.LampShowsTheFirstStanding : Prop :=
  (∀ s : State, s.loader.phase ≠ .reset → exec .lampRepeat s = .next { s with lamp := some (lampShown s) }) ∧
  (∀ s : State, s.loader.phase = .reset → exec .lampRepeat s = .next s) ∧
  (∀ (s : State) (c : Cause), s.loader.fault = some c → lampShown s = { code := c.code, addr := none }) ∧
  (∀ (s : State) (r : Role), s.role = some r → s.loader.fault = none →
    (s.lif.state = .addressConflict → lampShown s = { code := 28, addr := none }) ∧
    (s.lif.state ≠ .addressConflict →
      (r ≠ .test → s.lif.roleConflict = true → lampShown s = { code := 27, addr := none }) ∧
      (r ≠ .test → s.lif.roleConflict = false → s.ilk.stopFlag = true → lampShown s = { code := 1, addr := none }) ∧
      (r = .inspect → s.lif.roleConflict = false → s.ilk.stopFlag = false →
        lampShown s =
          if s.ieu.directFault then { code := 24, addr := none }
          else if 8 ≤ s.ieu.stall then { code := 31, addr := none }
          else match s.lif.staleAddr with
            | some a => { code := 29, addr := some a }
            | none => { code := 0, addr := none }) ∧
      (r = .dispose → s.lif.roleConflict = false → s.ilk.stopFlag = false →
        lampShown s =
          match s.dsu.halt, s.lif.staleAddr with
          | some c, _ => { code := c.code, addr := none }
          | none, some a => { code := 29, addr := some a }
          | none, none => { code := 0, addr := none }) ∧
      (∀ c, r = .test → s.tsq.state = some .safe → s.ilk.inForce = some c →
        lampShown s = { code := c.code, addr := none }) ∧
      (∀ c, r = .test → s.tsq.state = some .outOfService → s.tsq.oosCause = some c →
        lampShown s = { code := c.code, addr := none }) ∧
      (r = .test → s.tsq.state ≠ some .safe → s.tsq.state ≠ some .outOfService →
        lampShown s =
          match s.adm.mismatch, s.lif.staleAddr with
          | some a, _ => { code := 30, addr := some a }
          | none, some a => { code := 29, addr := some a }
          | none, none => { code := 0, addr := none })))

/-! ### The cell line -/

/-- O16. IDLE_SPAN counts released cells in IDLE_WAIT and enters CALL_WAIT at 1,024; a low sets the count to 0; reading
a span in two parts is reading it whole; in another state of the interface cells are not counted. -/
def Obligations.IdleSpanCounts : Prop :=
  (∀ (n : Nat) (s : State), s.lif.state = .idleWait → s.lif.idleCount < 1024 →
    exec (.idleSpan [.released n]) s = .next
      { s with lif := { s.lif with
          idleCount := min 1024 (s.lif.idleCount + n)
          state := if 1024 ≤ s.lif.idleCount + n then .callWait else .idleWait } }) ∧
  (∀ s : State, s.lif.state = .idleWait → s.lif.idleCount < 1024 →
    exec (.idleSpan [.low]) s = .next { s with lif := { s.lif with idleCount := 0 } }) ∧
  (∀ (xs ys : List LineRun) (s t : State), exec (.idleSpan xs) s = .next t →
    exec (.idleSpan (xs ++ ys)) s = exec (.idleSpan ys) t) ∧
  (∀ (xs : List LineRun) (s : State), s.lif.state ≠ .idleWait → exec (.idleSpan xs) s = .next s)

/-- O17. A call made with a reason, or joined, in CALL_WAIT: the station is in the round when the four call cells read
0, and else back in IDLE_WAIT, its pacing timer started in PACED mode (log 20). Outside CALL_WAIT no edge is a call. The
reasons: in QUIET mode a changed post word, a queued message or the keep-alive expiry; in PACED mode the pacing expiry,
and the keep-alive expiry with it (log 8); before the first complete round and in ROLE_CONFLICT the keep-alive expiry
alone. -/
def Obligations.CallsAndTheirReasons : Prop :=
  (∀ (read : BitVec 4) (s : State),
      let entered := { s with lif := { s.lif with state := .inRound, round := {} } }
      let back := { s with lif := { s.lif with
        state := .idleWait, idleCount := 0, round := {}, rxBuffer := none
        pacing := match s.lif.mode with | .paced => .running | .quiet => .stopped } }
      (s.lif.state = .callWait → read = 0 → exec (.callJoined read) s = .next entered) ∧
      (s.lif.state = .callWait → read ≠ 0 → exec (.callJoined read) s = .next back) ∧
      (s.lif.state = .callWait → s.reasonToCall = true → read = 0 → exec (.callMade read) s = .next entered) ∧
      (s.lif.state = .callWait → s.reasonToCall = true → read ≠ 0 → exec (.callMade read) s = .next back) ∧
      (s.lif.state = .callWait → s.reasonToCall = false → exec (.callMade read) s = .next s) ∧
      (s.lif.state ≠ .callWait → exec (.callMade read) s = .next s ∧ exec (.callJoined read) s = .next s)) ∧
  (∀ s : State,
      ((s.lif.joined = false ∨ s.lif.roleConflict = true) →
        (s.reasonToCall = true ↔ s.lif.keepAlive = .expired)) ∧
      (s.lif.joined = true → s.lif.roleConflict = false → s.lif.mode = .paced →
        (s.reasonToCall = true ↔ s.lif.pacing = .expired ∨ s.lif.keepAlive = .expired)) ∧
      (s.lif.joined = true → s.lif.roleConflict = false → s.lif.mode = .quiet →
        (s.reasonToCall = true ↔ s.lif.keepAlive = .expired ∨ s.txq ≠ [] ∨
          ∃ w v, s.postNow = some w ∧ (s.entry s.ownAddr).view = .intact v ∧
            (postRole w ≠ postRole v ∨ postState w ≠ postState v ∨
              argNoAge (postRole w) (postState w) (postArg w) ≠ argNoAge (postRole v) (postState v) (postArg v)))))

/-- O18. POST writes the word latched and reads it back; a word read back otherwise puts the interface in
ADDRESS_CONFLICT, with the transmit queue emptied and everything else kept; that the pacing timer is among what is kept is
the model's choice (log 20). A running station stays there until a reset: no other command moves the interface, its table
or its round counter. -/
def Obligations.OwnPostAndAddressConflict : Prop :=
  (∀ (read w : PostWord) (s : State),
      s.lif.state = .inRound → s.lif.round.posted = none → s.postNow = some w →
      (read = w → exec (.post read) s = .next
        { s with lif := { s.lif with round := { s.lif.round with posted := some w } } }) ∧
      (read ≠ w → exec (.post read) s = .next
        { s with lif := { s.lif with state := .addressConflict, round := {}, rxBuffer := none }, txq := [] })) ∧
  (∀ (c : Instr) (s t : State), s.lif.state = .addressConflict → s.loader.phase = .running →
      c ≠ .powerOnReset → c ≠ .pinReset → exec c s = .next t →
      t.lif.state = .addressConflict ∧ t.pvt = s.pvt ∧ t.lif.roundCounter = s.lif.roundCounter ∧
      t.loader.phase = .running)

/-- O19. What is written on the line reads back. Every post word that a role, a state code and an argument of Table 2-6
make reads intact, with its fields as written. The body of every docket that a kind may carry has a length of its kind,
passes its receiver's form check and gives the docket that the receiver holds; and whatever passes the form check is
such a docket. What the form check does at the gaps of R16 is the model's choice (log 16). -/
def Obligations.PostsAndDocketsReadBack : Prop :=
  (∀ (r : Role) (state arg : Nat), state < 16 → arg < 64 → argumentOk r state arg = true →
    let w := makePost r state arg
    classifyPost w = .intact w ∧ postRole w = some r ∧ postState w = state ∧ postArg w = arg) ∧
  (∀ (k : MsgKind) (sender : Addr) (d : Docket), d.Sendable k sender →
    parseDocket k sender (docketBody k d) = some (d.received k) ∧ k.lengthOk (docketBody k d).length = true) ∧
  (∀ (k : MsgKind) (sender : Addr) (body : List Byte) (d : Docket), parseDocket k sender body = some d →
    d.Sendable k sender ∧ d.received k = d)

/-- O20. One misread cell of an intact post never leaves it intact: it reads UNKNOWN. -/
def Obligations.SingleMisreadIsUnknown : Prop :=
  ∀ (w : PostWord) (i : Nat), i < 16 → classifyPost w = .intact w →
    classifyPost (w ^^^ (1#16 <<< i)) = .unknown

/-- O21. What a running station posts: the state code of its role's state with the argument of Table 2-6. -/
def Obligations.PostWordOfTheState : Prop :=
  (∀ (s : State) (h : HeadState), s.role = some .test → s.tsq.state = some h →
    (h = .idle → s.postNow = some (makePost .test 1 s.tsq.idleAge)) ∧
    (h = .waitRamp → s.postNow = some (makePost .test 5 ((if s.adm.urgent then 32 else 0) + s.adm.waitAge))) ∧
    (h = .done → s.postNow = some (makePost .test 11 ((if s.tsq.doneUrgent then 32 else 0) + s.tsq.doneAge))) ∧
    (∀ c, h = .safe → s.ilk.inForce = some c → s.postNow = some (makePost .test 13 c.code)) ∧
    (∀ c, h = .outOfService → s.tsq.oosCause = some c → s.postNow = some (makePost .test 14 c.code)) ∧
    (∀ n, (h, n) ∈ [(HeadState.loading, 2), (.filling, 3), (.zeroing, 4), (.ramping, 6), (.holding, 7),
        (.venting, 8), (.settling, 9), (.draining, 10), (.unloading, 12)] →
      s.postNow = some (makePost .test n 63))) ∧
  (∀ s : State, s.role = some .inspect →
    (s.lif.roleConflict = true → s.postNow = some (makePost .inspect 0 s.ieu.infeed.length)) ∧
    (∀ u n, s.lif.roleConflict = false → s.ieu.state = u →
      (u, n) ∈ [(IntakeState.ready, 1), (.inspecting, 2), (.infeedFull, 3), (.purge, 4), (.noPeriod, 5), (.estop, 6)] →
      s.postNow = some (makePost .inspect n s.ieu.infeed.length))) ∧
  (∀ s : State, s.role = some .dispose →
    s.postNow = some (makePost .dispose
      (if s.lif.roleConflict then 0
       else if s.dsu.stopCopy then 6
       else if s.dsu.halt.isSome then 5
       else if 4 ≤ s.dsu.recBuffer.length then 4
       else if 6 - s.dsu.arrival.length - (if s.dsu.call.isSome then 1 else 0) = 0 then 3
       else if s.dsu.call.isSome then 2 else 1)
      s.dsu.arrival.length)) ∧
  (makePost .test 1 5 = 0x222D ∧ makePost .test 5 0 = 0x2A07 ∧ makePost .test 6 63 = 0x2DFC ∧
    makePost .inspect 1 3 = 0x0219 ∧ makePost .dispose 1 0 = 0x4205)

/-- O22. An incomplete round, or a part in it, ends with nothing changed but the interface itself: in PACED mode the
pacing timer starts (log 20). The three line timers expire when they run. The silence expiry raises the line-silent
indication; at a head outside RAMPING, SAFE included (R143), and at INSPECT and DISPOSE, it changes nothing else but what
the reading of its tick does (log 3). That nothing latched ranks above the response in force is part of O10. -/
def Obligations.IncompleteRoundsAndLineTimers : Prop :=
  (∀ s : State, s.lif.state = .inRound → s.lif.round.posted.isSome = true → s.lif.round.stage = .posts →
      exec .incompleteRoundEnd s = .next
        { s with lif := { s.lif with
            state := .idleWait, idleCount := 0, round := {}, rxBuffer := none
            pacing := match s.lif.mode with | .paced => .running | .quiet => .stopped } }) ∧
  (∀ s : State,
      (s.lif.pacing = .running →
        exec .pacingExpiry s = .next { s with lif := { s.lif with pacing := .expired } }) ∧
      (s.lif.pacing ≠ .running → exec .pacingExpiry s = .next s) ∧
      (s.lif.keepAlive = .running →
        exec .keepAliveExpiry s = .next { s with lif := { s.lif with keepAlive := .expired } }) ∧
      (s.lif.keepAlive ≠ .running → exec .keepAliveExpiry s = .next s) ∧
      (∀ o, s.lif.silence ≠ .running → exec (.silenceExpiry o) s = .next s) ∧
      (∀ o, s.lif.silence = .running → s.role ≠ some .test →
        exec (.silenceExpiry o) s = .next { s with lif := { s.lif with silence := .expired, lineSilent := true } }) ∧
      (∀ o, s.lif.silence = .running → s.role = some .test → s.tsq.state ≠ some .ramping →
        (∀ c ∈ s.ilk.latched, ∃ f, s.ilk.inForce = some f ∧ f.code ≤ c.code) →
        exec (.silenceExpiry o) s = .next
          (openTick o { s with lif := { s.lif with silence := .expired, lineSilent := true } })))

/-! ### Messages -/

/-- O23. The key of a message: urgency, kind, 15 minus the wait count, the sender's address, and what a receiver takes
from it; a kind code of 0 or 7, or an urgency cell that is not the kind's, names no kind. -/
def Obligations.ContentionKeyFields : Prop :=
  (∀ (a : Addr) (m : TxMsg), m.wait ≤ 15 →
    (msgKey a m).toNat =
      (if m.kind = .docketReturn ∨ m.kind = .releaseCall then 0 else 2048) + 256 * m.kind.code + 16 * (15 - m.wait) +
        a.toNat ∧
    keyAddr (msgKey a m) = a ∧ keyKind (msgKey a m) = some m.kind) ∧
  ([MsgKind.docketReturn, .releaseCall, .docketDirect, .docketOffer, .verdictNote, .stationCard].map MsgKind.code =
    [1, 2, 3, 4, 5, 6]) ∧
  (∀ k : Key, keyKind k = none ↔
    k.extractLsb' 8 3 = 0 ∨ k.extractLsb' 8 3 = 7 ∨ ((k.extractLsb' 8 3).toNat ≤ 2 ↔ k.getLsbD 11 = true))

/-- O24. CONTENTION: the front message contends with its key, and the window is the station's exactly when no cell it
wrote as 1 read 0; a station with an empty queue writes nothing and reads the key. A station that has not won and reads
a key that names no kind leaves the window and is in IDLE_WAIT (R40); all twelve cells at 1 are no key (R22). Nothing
else changes; that the own write of cell 263 is fixed here is the model's choice (log 22). -/
def Obligations.ContentionOutcome : Prop :=
  ∀ (read : Key) (s : State),
    s.lif.state = .inRound → s.lif.round.posted.isSome = true → s.lif.round.stage = .posts →
    let ignored := read ≠ BitVec.allOnes 12 ∧ keyKind read = none
    let window := fun (sent : Option Key) (won : Bool) =>
      { s.lif with round := { s.lif.round with
        stage := .window, closeZero := some (s.lif.round.closeZero.getD s.wantsPaced), keySent := sent, key := some read
        won := won } }
    let left := fun l : Lif =>
      { l with state := .idleWait, idleCount := 0, rxBuffer := none, round := { l.round with stage := .over } }
    (s.txq = [] →
      (¬ ignored → exec (.contention read) s = .next { s with lif := window none false }) ∧
      (ignored → exec (.contention read) s = .next { s with lif := left (window none false) })) ∧
    (∀ m rest, s.txq = m :: rest →
      let key := msgKey s.ownAddr m
      let txq := { m with contending := true } :: rest
      let wins := ∀ i < 12, ¬ (key.getLsbD i = true ∧ read.getLsbD i = false)
      (wins → exec (.contention read) s = .next { s with lif := window (some key) true, txq := txq }) ∧
      (¬ wins → ¬ ignored →
        exec (.contention read) s = .next { s with lif := window (some key) false, txq := txq }) ∧
      (¬ wins → ignored →
        exec (.contention read) s = .next { s with lif := left (window (some key) false), txq := txq }))

/-- O25. MESSAGE_SEND: the winner sends the frame of its message. A broadcast leaves the queue, one overruled at the
send too (the model's choice, log 14); a directed message read back as sent waits for its accept field; one overruled in
some cell is abandoned and counts one unaccepted sending. -/
def Obligations.MessageSending : Prop :=
  ∀ (read : List Byte) (m : TxMsg) (key : Key) (s : State),
    s.contender = some m → s.lif.round.keySent = some key →
    s.lif.state = .inRound → s.lif.round.won = true → s.lif.round.stage = .window →
    let f := frameOf key m
    let clash := (((frameBytes f).zip read).any fun p => p.1 &&& ~~~p.2 != 0)
    let after := fun (g : RoundStage) => { s.lif with round := { s.lif.round with frameSent := some f, stage := g } }
    let counted := s.txq.filterMap fun x =>
      if !x.contending then some x else if x.withdraw then none else some { x with attempts := x.attempts + 1 }
    (m.kind = .verdictNote ∨ m.kind = .stationCard →
      exec (.messageSend read) s = .next
        { s with lif := after .over, txq := s.txq.eraseP fun x => x.contending }) ∧
    (m.kind.directed = true → clash = false →
      exec (.messageSend read) s = .next { s with lif := after .accept }) ∧
    (m.kind = .docketReturn ∨ m.kind = .docketDirect → clash = true →
      exec (.messageSend read) s = .next { s with lif := after .over, txq := counted }) ∧
    (m.kind = .docketOffer → clash = true →
      exec (.messageSend read) s = .next
        { s with lif := after .over, txq := counted, ieu := { s.ieu with stall := s.ieu.stall + 1 } }) ∧
    (m.kind = .releaseCall → clash = true →
      exec (.messageSend read) s = .next
        { s with
          lif := after .over
          txq := counted
          dsu := { s.dsu with call := s.dsu.call.bind fun c =>
            if c.timer == .expired && !c.returnPhase then none else some c } })

/-- O26. The pair an accept field names: valid exactly when the last four cells are the complement of the first, which
names the acceptor; two stations writing it never give a valid pair. An invalid pair counts one unaccepted sending of
the message, and changes nothing else but, for an offer, the stall count, and for a call whose timer has expired, its
end. -/
def Obligations.AcceptPairsAndInvalidOnes : Prop :=
  ((∀ (b : Byte) (a : Addr), acceptPair b = some a ↔ b = a ++ ~~~a) ∧
    (∀ a b : Addr, a ≠ b → acceptPair ((a ++ ~~~a) &&& (b ++ ~~~b)) = none) ∧
    acceptPair 0xFF = none) ∧
  (∀ (read : Byte) (m : TxMsg) (s : State),
      s.contender = some m → s.lif.state = .inRound → s.lif.round.won = true → s.lif.round.stage = .accept →
      acceptPair read = none →
      let ended := { s.lif with round := { s.lif.round with stage := .over } }
      let counted := s.txq.filterMap fun x =>
        if !x.contending then some x else if x.withdraw then none else some { x with attempts := x.attempts + 1 }
      (m.kind = .docketReturn ∨ m.kind = .docketDirect →
        exec (.acceptFieldRead read) s = .next { s with lif := ended, txq := counted }) ∧
      (m.kind = .docketOffer → exec (.acceptFieldRead read) s = .next
        { s with lif := ended, txq := counted, ieu := { s.ieu with stall := s.ieu.stall + 1 } }) ∧
      (m.kind = .releaseCall → exec (.acceptFieldRead read) s = .next
        { s with
          lif := ended
          txq := counted
          dsu := { s.dsu with call := s.dsu.call.bind fun c =>
            if c.timer == .expired && !c.returnPhase then none else some c } }))

/-- O27. A valid accept pair: the message leaves the queue and custody moves. A head's return opens the gate, or, with
no cylinder, ends UNLOADING; one accepted during a SAFE outside a test leaves the gate to the exit, which goes to IDLE
without a cylinder. An offer sets the route, calls the infeed channel and moves the unit on; a direct docket calls the
bypass channel; a call enters its return phase. IDLE records no cause of OUT_OF_SERVICE (log 39). -/
def Obligations.ValidAcceptMovesCustody : Prop :=
  ∀ (read : Byte) (a : Addr) (m : TxMsg) (s : State),
    s.contender = some m → s.lif.state = .inRound → s.lif.round.won = true → s.lif.round.stage = .accept →
    acceptPair read = some a →
    let ended := { s.lif with round := { s.lif.round with stage := .over } }
    let left := s.txq.eraseP fun x => x.contending
    let run := exec (.acceptFieldRead read) s
    let given := { s.tsq with docket := none, gateFlag := true }
    (∀ d, m.kind = .docketReturn → s.tsq.state = some .unloading → s.tsq.docket = some d → d.noCylinder = false →
      run = .next
        { s with
          lif := ended
          txq := left
          tsq := { given with gateOpen := true, phase := some { ticks := 0, fresh := s.tsq.tickOpen } }
          msu := { s.msu with limits := none } }) ∧
    (∀ d, m.kind = .docketReturn → s.tsq.state = some .unloading → s.tsq.docket = some d → d.noCylinder = true →
      ∃ t, run = .next t ∧ IdleOrOutOfService s.inputs.seat s.ilk.marks t ∧ t.tsq.docket = none ∧
        t = { s with lif := ended, txq := left, tsq := t.tsq, msu := { s.msu with limits := none } }) ∧
    (∀ d, m.kind = .docketReturn → s.tsq.state = some .safe → s.tsq.safeFrom = none → s.tsq.docket = some d →
      run = .next
        { s with
          lif := ended
          txq := left
          tsq := { given with returnState := if d.noCylinder then some .idle else s.tsq.returnState }
          msu := { s.msu with limits := none } }) ∧
    (m.kind = .docketReturn → s.tsq.state ≠ some .unloading → s.tsq.state ≠ some .safe → run = .next
      { s with lif := ended, txq := left, tsq := given, msu := { s.msu with limits := none } }) ∧
    (m.kind = .docketOffer → run = .next
      { s with
        lif := ended
        txq := left
        ieu := { s.ieu with
          infeed := s.ieu.infeed.tail
          stall := 0
          route := a
          infeedCh := if s.ieu.state = .estop then .owed .infeedRelease else .pulsing .infeedRelease
          state := stateAfterInfeed s.ieu } }) ∧
    (m.kind = .docketDirect → run = .next
      { s with
        lif := ended
        txq := left
        ieu := { s.ieu with
          direct := s.ieu.direct.tail
          bypass := if s.ieu.state = .estop then .owed .bypassRelease else .pulsing .bypassRelease } }) ∧
    (m.kind = .releaseCall → run = .next
      { s with
        lif := ended
        txq := left
        dsu := { s.dsu with call := s.dsu.call.map fun c => { c with returnPhase := true, timer := .running } } })

/-- O28. MESSAGE_DROPPED takes a directed message, not an offer, from the queue on its fourth unaccepted sending. A
head's return leaves the head OUT_OF_SERVICE with HANDOFF_FAILED and its docket, at once or, during a SAFE entered from
UNLOADING, at its exit (the caller stays recorded: log 21); a direct docket raises the direct fault; a call in its call
phase ends. With no such message nothing changes. -/
def Obligations.FourthUnacceptedDrops : Prop :=
  ∀ (m : TxMsg) (s : State),
    let due := fun x : TxMsg => x.kind.directed && x.kind != .docketOffer && 4 ≤ x.attempts
    let left := s.txq.eraseP due
    (s.txq.find? due = none → exec .messageDropped s = .next s) ∧
    (s.txq.find? due = some m →
      (m.kind = .docketReturn → s.tsq.state = some .unloading → exec .messageDropped s = .next
        { s with
          txq := left
          tsq := { s.tsq with
            state := some .outOfService, oosCause := some .handoffFailed, gateOpen := false, lidLock := false
            phase := some { ticks := 0, fresh := s.tsq.tickOpen } } }) ∧
      (m.kind = .docketReturn → s.tsq.state = some .safe → s.tsq.returnState = some .unloading →
        exec .messageDropped s = .next
          { s with
            txq := left
            tsq := { s.tsq with returnState := some .outOfService, oosCause := some .handoffFailed } }) ∧
      (m.kind = .docketReturn → s.tsq.state ≠ some .unloading →
        ¬ (s.tsq.state = some .safe ∧ s.tsq.returnState = some .unloading) →
        exec .messageDropped s = .next { s with txq := left }) ∧
      (m.kind = .docketDirect → exec .messageDropped s = .next
        { s with
          txq := left
          ieu := { s.ieu with
            directFault := true, state := if s.ieu.state = .ready then .infeedFull else s.ieu.state } }) ∧
      (m.kind = .releaseCall → exec .messageDropped s = .next
        { s with
          txq := left
          dsu := { s.dsu with call := s.dsu.call.filter fun c => c.returnPhase } }))

/-- O29. A new message is placed after every message that sorts at or before it and before every one that sorts after
it, by urgency and then kind code; with four queued, or in ROLE_CONFLICT, it is not queued. -/
def Obligations.QueueInsertion : Prop :=
  (∀ (m : TxMsg) (q : List TxMsg), q.Pairwise (fun x y => x.kind.order ≤ y.kind.order) →
    insertMsg m q = q.filter (fun x => x.kind.order ≤ m.kind.order) ++
      m :: q.filter (fun x => m.kind.order < x.kind.order)) ∧
  (∀ x y : MsgKind, x.order < y.order ↔ x.urgencyCell < y.urgencyCell ∨
    (x.urgencyCell = y.urgencyCell ∧ x.code < y.code)) ∧
  (∀ (m : TxMsg) (s : State), s.txq.length < 4 → s.lif.roleConflict = false →
    queueMsg m s = { s with txq := insertMsg m s.txq }) ∧
  (∀ (m : TxMsg) (s : State), (4 ≤ s.txq.length ∨ s.lif.roleConflict = true) → queueMsg m s = s)

/-- O30. DOCKET_OFFER at a head: in IDLE, chosen in its own view, with a body that passes every check, it writes its
accept field and takes the docket if the field reads back exactly: LOADING, with the test part of a new test. A
mismatch, another state or another head chosen takes nothing. That the idle age keeps its count in LOADING is the
model's choice (log 42). -/
def Obligations.OfferTaken : Prop :=
  ∀ (f : Frame) (read : Byte) (d : Docket) (s : State),
    s.role = some .test → s.canReceive f = true → frameChecks .docketOffer f = true → f.dest = 0x10 →
    parseDocket .docketOffer (keyAddr f.key) f.body = some d →
    let own := s.ownAddr
    let mine : Byte := own ++ ~~~own
    let heard : Option Byte → Lif := fun driven =>
      { s.lif with
        rxBuffer := some f
        round := { s.lif.round with
          stage := .over, closeZero := some (s.lif.round.closeZero.getD s.wantsPaced), key := some f.key
          acceptDriven := driven.or s.lif.round.acceptDriven } }
    (s.tsq.state = some .idle → s.chosenHead d = some own → read = mine →
      exec (.docketOffer f read) s = .next
        { s with
          lif := heard (some mine)
          tsq := { s.tsq with
            state := some .loading, phase := some { ticks := 0, fresh := s.tsq.tickOpen }, gateFlag := false
            docket := some { d with test := some { head := own, peak := 0, verdict := .notTested, cause := none } } } }) ∧
    (s.tsq.state = some .idle → s.chosenHead d = some own → read ≠ mine →
      exec (.docketOffer f read) s = .next { s with lif := heard (some mine) }) ∧
    (s.tsq.state ≠ some .idle ∨ s.chosenHead d ≠ some own →
      exec (.docketOffer f read) s = .next { s with lif := heard none })

/-- O31. RELEASE_CALL at a head: taken in DONE, it records the caller, queues the return with the docket as it stands
and moves the head to UNLOADING; in any other state it is a late call. That the done age keeps its count in UNLOADING is
the model's choice (log 42). -/
def Obligations.CallTaken : Prop :=
  ∀ (f : Frame) (read : Byte) (s : State),
    s.role = some .test → s.canReceive f = true → frameChecks .releaseCall f = true → f.dest = 0#4 ++ s.ownAddr →
    let own := s.ownAddr
    let mine : Byte := own ++ ~~~own
    let caller := keyAddr f.key
    let heard : Option Byte → Lif := fun driven =>
      { s.lif with
        rxBuffer := some f
        round := { s.lif.round with
          stage := .over, closeZero := some (s.lif.round.closeZero.getD s.wantsPaced), key := some f.key
          acceptDriven := driven.or s.lif.round.acceptDriven } }
    (∀ d, s.tsq.state = some .done → s.tsq.docket = some d → read = mine → s.txq.length < 4 →
      s.lif.roleConflict = false →
      exec (.releaseCall f read) s = .next
        { s with
          lif := heard (some mine)
          txq := insertMsg { kind := .docketReturn, dest := 0#4 ++ caller, body := docketBody .docketReturn d } s.txq
          tsq := { s.tsq with
            state := some .unloading, phase := none, caller := some caller, doneUrgent := false, gateOpen := false
            lidLock := false } }) ∧
    (s.tsq.state = some .done → read ≠ mine →
      exec (.releaseCall f read) s = .next { s with lif := heard (some mine) }) ∧
    (s.tsq.state ≠ some .done → exec (.releaseCall f read) s = .next { s with lif := heard none })

/-- O32. DOCKET_DIRECT and DOCKET_RETURN at DISPOSE: a direct docket is accepted with a free place and a new identity;
a return from the head called with a new identity, which ends the call. The docket joins the back of the arrival queue
with its timer started; a return without a cylinder is finished as MISSING in the same event, its record line in the
buffer and its note queued, or the line waiting. An accept field that reads back otherwise than written takes nothing. -/
def Obligations.DocketsAcceptedAtDispose : Prop :=
  ∀ (f : Frame) (read : Byte) (d : Docket) (s : State),
    s.role = some .dispose → s.lif.roleConflict = false → s.canReceive f = true → f.dest = 0#4 ++ s.ownAddr →
    let own := s.ownAddr
    let mine : Byte := own ++ ~~~own
    let free := 6 - s.dsu.arrival.length - (if s.dsu.call.isSome then 1 else 0)
    let known := s.dsu.arrival.any fun a => a.docket.mfr == d.mfr && a.docket.serial == d.serial
    let heard : Option Byte → Lif := fun driven =>
      { s.lif with
        rxBuffer := some f
        round := { s.lif.round with
          stage := .over, closeZero := some (s.lif.round.closeZero.getD s.wantsPaced), key := some f.key
          acceptDriven := driven.or s.lif.round.acceptDriven } }
    (frameChecks .docketDirect f = true → parseDocket .docketDirect (keyAddr f.key) f.body = some d →
      (1 ≤ free → known = false → read = mine → exec (.docketDirect f read) s = .next
        { s with lif := heard (some mine), dsu := { s.dsu with arrival := s.dsu.arrival ++ [{ docket := d }] } }) ∧
      (1 ≤ free → known = false → read ≠ mine →
        exec (.docketDirect f read) s = .next { s with lif := heard (some mine) }) ∧
      (free = 0 ∨ known = true → exec (.docketDirect f read) s = .next { s with lif := heard none })) ∧
    (frameChecks .docketReturn f = true → parseDocket .docketReturn (keyAddr f.key) f.body = some d →
      (∀ c, s.dsu.call = some c → c.head = keyAddr f.key → known = false → read = mine → d.noCylinder = false →
        exec (.docketReturn f read) s = .next
          { s with
            lif := heard (some mine)
            dsu := { s.dsu with call := none, arrival := s.dsu.arrival ++ [{ docket := d }] } }) ∧
      (∀ c, s.dsu.call = some c → c.head = keyAddr f.key → known = false → read = mine → d.noCylinder = true →
        let lost := { d with disposal := some { disposition := .missing, cause := some .missing } }
        let note : Note := { hash := d.hash, disposition := .missing, invalid := false, tag := d.tag.getD 0 }
        let msg : TxMsg := { kind := .verdictNote, dest := 0xFF, body := noteBody note }
        (s.dsu.recBuffer.length < 4 → exec (.docketReturn f read) s = .next
          { s with
            lif := heard (some mine)
            dsu := { s.dsu with call := none, recBuffer := s.dsu.recBuffer ++ [.docket lost] }
            txq := if s.txq.length < 4 then insertMsg msg s.txq else s.txq }) ∧
        (4 ≤ s.dsu.recBuffer.length → exec (.docketReturn f read) s = .next
          { s with
            lif := heard (some mine)
            dsu := { s.dsu with
              call := none
              arrival := s.dsu.arrival ++ [{ docket := lost, missing := true }]
              recWaiters := s.dsu.recWaiters ++
                [{ line := .docket lost, source := .queued d.mfr d.serial }] } })) ∧
      (∀ c, s.dsu.call = some c → c.head = keyAddr f.key → known = false → read ≠ mine →
        exec (.docketReturn f read) s = .next { s with lif := heard (some mine) }) ∧
      (known = true ∨ (∀ c, s.dsu.call = some c → c.head ≠ keyAddr f.key) →
        exec (.docketReturn f read) s = .next { s with lif := heard none }))

/-- O33. STATION_CARD: a card that passes its checks is written in its sender's entry, and a head computes K_eff and the
mismatch address again; what a reader of the table sees of any card stays as the last complete round left it until the
round's update (R34). A card is written in ROLE_CONFLICT too, which the rules cited do not say (log 33). VERDICT_NOTE:
INSPECT updates its history, the other roles take nothing from it. -/
def Obligations.CardsAndNotesTaken : Prop :=
  (∀ (f : Frame) (c : Card) (s : State),
    s.canReceive f = true → frameChecks .stationCard f = true → f.dest = 0xFF → keyAddr f.key ≠ s.ownAddr →
    parseCard f.body = some c →
    ∃ t, exec (.stationCard f) s = .next t ∧
      t.pvt = s.pvt.set (keyAddr f.key).toNat { s.entry (keyAddr f.key) with card := some c } ∧
      t.lif.round.cardFrom = some (keyAddr f.key) ∧ t.lif.rxBuffer = some f ∧
      t.lif.round.cardBefore = (s.entry (keyAddr f.key)).card ∧
      (s.lif.round.cardFrom = none → ∀ a, t.settledCard a = s.settledCard a) ∧
      (s.role = some .test → t.adm = { s.adm with kEff := t.effectiveK, mismatch := t.lowKAddr }) ∧
      (s.role ≠ some .test → t.adm = s.adm) ∧
      t = { s with lif := t.lif, pvt := t.pvt, adm := t.adm }) ∧
  (∀ (f : Frame) (n : Note) (s : State),
    s.canReceive f = true → frameChecks .verdictNote f = true → f.dest = 0xFF → parseNote f.body = some n →
    ∃ t, exec (.verdictNote f) s = .next t ∧ t.lif.rxBuffer = some f ∧
      (s.role = some .inspect → s.lif.roleConflict = false →
        t.history = noteHistory s.history n s.lif.roundCounter) ∧
      (s.role ≠ some .inspect → t.history = s.history) ∧
      t = { s with lif := t.lif, history := t.history })

/-- O34. A frame that fails a check of its kind takes nothing. One whose key is none of its kind, or whose length is
above 60, is read no further: nothing of it is held, and the interface is back in IDLE_WAIT (R40, R42). One that fails
its length range, its CRC, its destination or its body's form stands in the receive buffer until the round ends, and the
state is otherwise as it was. -/
def Obligations.BadFramesTakeNothing : Prop :=
  ∀ (f : Frame) (read : Byte) (s : State), s.canReceive f = true →
    let round := { s.lif.round with
      stage := .over, closeZero := some (s.lif.round.closeZero.getD s.wantsPaced), key := some f.key }
    let left : State :=
      { s with lif := { s.lif with state := .idleWait, idleCount := 0, rxBuffer := none, round := round } }
    let heard : State := { s with lif := { s.lif with rxBuffer := some f, round := round } }
    let kinds := [(Instr.docketOffer f read, MsgKind.docketOffer), (.releaseCall f read, .releaseCall),
      (.docketDirect f read, .docketDirect), (.docketReturn f read, .docketReturn), (.stationCard f, .stationCard),
      (.verdictNote f, .verdictNote)]
    (∀ c k, (c, k) ∈ kinds → keyKind f.key ≠ some k ∨ 60 < f.len.toNat → exec c s = .next left) ∧
    (∀ c k, (c, k) ∈ kinds → keyKind f.key = some k → f.len.toNat ≤ 60 →
      (f.body.length ≠ f.len.toNat ∨ frameCrc f.key f.dest f.len f.body ≠ f.crc ∨ k.lengthOk f.len.toNat = false) →
      exec c s = .next heard) ∧
    (frameChecks .docketOffer f = true →
      f.dest ≠ 0x10 ∨ parseDocket .docketOffer (keyAddr f.key) f.body = none →
      exec (.docketOffer f read) s = .next heard) ∧
    (frameChecks .releaseCall f = true → f.dest ≠ 0#4 ++ s.ownAddr → exec (.releaseCall f read) s = .next heard) ∧
    (frameChecks .docketDirect f = true →
      f.dest ≠ 0#4 ++ s.ownAddr ∨ parseDocket .docketDirect (keyAddr f.key) f.body = none →
      exec (.docketDirect f read) s = .next heard) ∧
    (frameChecks .docketReturn f = true →
      f.dest ≠ 0#4 ++ s.ownAddr ∨ parseDocket .docketReturn (keyAddr f.key) f.body = none →
      exec (.docketReturn f read) s = .next heard) ∧
    (frameChecks .stationCard f = true →
      f.dest ≠ 0xFF ∨ keyAddr f.key = s.ownAddr ∨ parseCard f.body = none → exec (.stationCard f) s = .next heard) ∧
    (frameChecks .verdictNote f = true → f.dest ≠ 0xFF ∨ parseNote f.body = none →
      exec (.verdictNote f) s = .next heard)

/-! ### The end of a complete round -/

/-- O35. ROUND_END: the counter advances, every entry takes the reading of its post, the line mode is the one cell 263
reads, the timers are set anew, the stale peer is looked up, and the interface returns to IDLE_WAIT; one that left the
window early is there already and goes on counting (R40, R42): that the round's end is taken there, or from CALL_WAIT,
with all its updates is the model's choice (log 23). ROLE_CONFLICT is entered exactly when an intact post of
the station's own singular role stands at another address (R38): the transmit queue is then empty, the outputs of the
role are at rest, and the dockets stay where they are. That the timers of punch and strike stop with the outputs (log 42),
that a pulse of INSPECT that runs or is owed is dropped with them, and that the waiter list stays (log 44) is the model's
choice. Parameters, inputs, ports, interlock, history and lamp stay.
Where the station has no part in the round, or its own sending is in progress, nothing changes (the latter: log 11). -/
def Obligations.RoundEndUpdatesTheTable : Prop :=
  (∀ s : State, s.roundDue = true ↔
    (s.lif.state = .inRound ∧ s.sending = false) ∨ s.lif.state = .idleWait ∨ s.lif.state = .callWait) ∧
  (∀ (posts : List PostWord) (cell263 : Bool) (s : State), s.lif.round.posted = none ∨ s.roundDue = false →
    exec (.roundEnd posts cell263) s = .next s) ∧
  ∀ (posts : List PostWord) (cell263 : Bool) (r : Role) (w : PostWord) (s : State),
    s.role = some r → s.lif.round.posted = some w → s.roundDue = true →
    ∃ t, exec (.roundEnd posts cell263) s = .next t ∧
      (t.lif.roundCounter = s.lif.roundCounter + 1 ∧ t.lif.round = {} ∧ t.lif.rxBuffer = none ∧
        t.lif.keepAlive = .running ∧ t.lif.silence = .running ∧ t.lif.lineSilent = false ∧ t.lif.joined = true) ∧
      (s.lif.state = .inRound → t.lif.state = .idleWait ∧ t.lif.idleCount = 0) ∧
      (s.lif.state ≠ .inRound → t.lif.state = s.lif.state ∧ t.lif.idleCount = s.lif.idleCount) ∧
      (cell263 = false → t.lif.mode = .paced ∧ t.lif.pacing = .running) ∧
      (cell263 = true → t.lif.mode = .quiet ∧ t.lif.pacing = .stopped) ∧
      ((t.entry s.ownAddr).view = .intact w ∧ (t.entry s.ownAddr).lastIntact = s.lif.roundCounter + 1 ∧
        (s.lif.joined = true → (t.entry s.ownAddr).card = (s.entry s.ownAddr).card) ∧
        (s.lif.joined = false → (t.entry s.ownAddr).card = some (ownCard r s))) ∧
      (∀ a : Addr, a ≠ s.ownAddr →
        let x := posts.getD a.toNat (BitVec.allOnes 16)
        let e := s.entry a
        (x = BitVec.allOnes 16 → t.entry a = { e with view := .absent, card := none }) ∧
        (classifyPost x = .unknown → t.entry a = { e with view := .unknown }) ∧
        (∀ v, classifyPost x = .intact v →
          (t.entry a).view = .intact v ∧ (t.entry a).lastIntact = s.lif.roundCounter + 1 ∧
          ((s.lif.round.cardFrom = some a ∧ ∃ c, e.card = some c ∧ postRole v ≠ some c.role) →
            (t.entry a).card = none) ∧
          (¬ (s.lif.round.cardFrom = some a ∧ ∃ c, e.card = some c ∧ postRole v ≠ some c.role) →
            (t.entry a).card = e.card))) ∧
      (t.lif.staleAddr = allAddrs.find? fun a =>
        (t.entry a).card.isSome && (t.entry a).view == .unknown &&
          decide (64 ≤ (t.lif.roundCounter - (t.entry a).lastIntact).toNat)) ∧
      (t.lif.roleConflict = true ↔ s.lif.roleConflict = true ∨
        (r ≠ .test ∧ ∃ a v, a ≠ s.ownAddr ∧ (t.entry a).view = .intact v ∧ postRole v = some r)) ∧
      (s.lif.roleConflict = false → t.lif.roleConflict = true →
        t.txq = [] ∧
        (r = .inspect → intakeReady t = false ∧ (∀ p, pulseActive t p = false) ∧ t.ieu.stage = .idle ∧
          t.ieu.infeedCh = .idle ∧ t.ieu.bypass = .idle ∧ t.ieu.route = 0) ∧
        (r = .dispose → t.dsu.lane = 0 ∧ laneRelease t = false ∧ markReady t = false ∧ t.dsu.punchPulse = false ∧
          t.dsu.punchTimer = .stopped ∧ t.dsu.strike = .stopped) ∧
        t.ieu.work = s.ieu.work ∧ t.ieu.infeed = s.ieu.infeed ∧ t.ieu.direct = s.ieu.direct ∧
        t.dsu.work = s.dsu.work ∧ t.dsu.arrival = s.dsu.arrival ∧ t.dsu.recBuffer = s.dsu.recBuffer ∧
        t.dsu.recWaiters = s.dsu.recWaiters) ∧
      t = { s with
        lif := t.lif, txq := t.txq, pvt := t.pvt, tsq := t.tsq, msu := t.msu, adm := t.adm, ieu := t.ieu, dsu := t.dsu }

/-- O36. ROUND_END at a head. A message whose drop is still due is dropped first, as MESSAGE_DROPPED drops it (O28),
which leaves `r`; that ROUND_END takes such a drop is the model's choice (log 15). Then the idle and done ages advance
up to their maxima, the station's card is queued after its first complete round and when an address newly appears,
unless one is queued or there is no place, and the message that contended waits one round more. K_eff and the mismatch
address follow the table. In every state but IDLE, DONE and WAIT_RAMP the sequencer stays as it was, and out of
WAIT_RAMP (O37) the measurement unit, the wait age and the urgent flag stay. -/
def Obligations.RoundEndAdvancesCounts : Prop :=
  ∀ (posts : List PostWord) (cell263 : Bool) (w : PostWord) (s : State),
    s.role = some .test → s.lif.round.posted = some w → s.roundDue = true →
    ∃ r t, exec .messageDropped s = .next r ∧ exec (.roundEnd posts cell263) s = .next t ∧
      RoundEndQueue .test posts r t.txq ∧
      t.adm.kEff = t.effectiveK ∧ t.adm.mismatch = t.lowKAddr ∧ t.ieu = r.ieu ∧ t.dsu = r.dsu ∧
      (r.tsq.state = some .idle → t.tsq = { r.tsq with idleAge := min 63 (r.tsq.idleAge + 1) }) ∧
      (r.tsq.state = some .done → t.tsq = { r.tsq with doneAge := min 31 (r.tsq.doneAge + 1) }) ∧
      (r.tsq.state ∉ [some .idle, some .done, some .waitRamp] → t.tsq = r.tsq) ∧
      (r.tsq.state ≠ some .waitRamp → t.msu = r.msu ∧ t.adm.waitAge = r.adm.waitAge ∧ t.adm.urgent = r.adm.urgent)

/-- O37. ROUND_END at a head in WAIT_RAMP with a claim: admitted to RAMPING when fewer than K_eff entries of the
updated table stand ahead of it; otherwise its wait age advances. K_eff is the smallest K that the head's own profile and
the TEST cards of its table carry (that the own profile's counts without its card is the model's reading, log 12), and
the mismatch address is the lowest one whose TEST card carries a K below the head's own, absent when none does. At the
admission the three pressure limits follow from the docket's test_pressure, each quotient floored (R128, R134). -/
def Obligations.AdmissionAtRoundEnd : Prop :=
  (∀ s : State,
    let carries := fun (a : Addr) (k : Nat) =>
      ∃ c x, (s.entry a).card = some c ∧ c.role = .test ∧ c.head = some x ∧ x.k = k
    let low := fun a : Addr => ∃ k, carries a k ∧ k < s.params.k
    s.effectiveK ≤ s.params.k ∧ (∀ a k, carries a k → s.effectiveK ≤ k) ∧
    (s.effectiveK = s.params.k ∨ ∃ a, carries a s.effectiveK) ∧
    (∀ a, s.lowKAddr = some a ↔ low a ∧ ∀ b : Addr, b.toNat < a.toNat → ¬ low b) ∧
    (s.lowKAddr = none ↔ ∀ a, ¬ low a)) ∧
  ∀ (posts : List PostWord) (cell263 : Bool) (w : PostWord) (s : State),
    s.role = some .test → s.lif.round.posted = some w → s.roundDue = true →
    s.tsq.state = some .waitRamp → s.lif.roleConflict = false →
    ∃ t, exec (.roundEnd posts cell263) s = .next t ∧
      t.adm.kEff = t.effectiveK ∧ t.adm.mismatch = t.lowKAddr ∧
      (∃ ahead : Addr → Bool, t.countAhead = (allAddrs.filter ahead).length ∧
        ∀ a, ahead a = true ↔
          (∃ v, (t.entry a).view = .intact v ∧ postRole v = some .test ∧ postState v = 6) ∨
          ((t.entry a).view = .unknown ∧ ∃ c, (t.entry a).card = some c ∧ c.role = .test) ∨
          (∃ v, (t.entry a).view = .intact v ∧ postRole v = some .test ∧ postState v = 5 ∧
            (postArg w / 32 < postArg v / 32 ∨
              (postArg v / 32 = postArg w / 32 ∧ postArg w % 32 < postArg v % 32) ∨
              (postArg v = postArg w ∧ a.toNat < s.ownAddr.toNat)))) ∧
      (postRole w = some .test → postState w = 5 → t.countAhead < t.adm.kEff →
        t.tsq = { s.tsq with
          state := some .ramping, lidLock := true, phase := some { ticks := 0, fresh := s.tsq.tickOpen } } ∧
        t.adm.waitAge = 0 ∧ t.adm.urgent = false ∧
        t.msu = { s.msu with limits := some (pressureLimits s.params s.testPressure) } ∧
        (∀ d, s.tsq.docket = some d → t.msu.limits = some
          { top := d.testPressure + d.testPressure * s.params.bandPm / 1000
            cond := d.testPressure + d.testPressure * s.params.condPm / 1000
            low := d.testPressure - d.testPressure * s.params.dropPm / 1000 }) ∧
        (headOutputs t).pressV = true ∧ (headOutputs t).pumpDemand = true) ∧
      ((¬ (postRole w = some .test ∧ postState w = 5) ∨ t.adm.kEff ≤ t.countAhead) →
        t.tsq = s.tsq ∧ t.msu = s.msu ∧ t.adm.waitAge = min 31 (s.adm.waitAge + 1) ∧ t.adm.urgent = s.adm.urgent)

/-- O38. The head an offer is placed on has the greatest idle age and then the lowest address among the intact IDLE
posts whose card covers the docket; the head a call goes to is, among the intact DONE posts, urgent before normal, then
of the greatest done age, then of the lowest address. -/
def Obligations.PlacementAndArbitration : Prop :=
  (∀ (s : State) (d : Docket),
    let candidate := fun a : Addr =>
      ∃ v c h, (s.entry a).view = .intact v ∧ postRole v = some .test ∧ postState v = 1 ∧ (s.entry a).card = some c ∧
        c.role = .test ∧ c.head = some h ∧ d.testPressure ≤ h.rating ∧ d.waterCapacity ≤ h.capacity
    (s.chosenHead d = none ↔ ∀ a, ¬ candidate a) ∧
    (∀ a, s.chosenHead d = some a ↔ candidate a ∧ ∀ b, candidate b → b ≠ a →
      (s.entry b).view.arg < (s.entry a).view.arg ∨
      ((s.entry b).view.arg = (s.entry a).view.arg ∧ a.toNat < b.toNat))) ∧
  (∀ s : State,
    let waits := fun a : Addr => ∃ v, (s.entry a).view = .intact v ∧ postRole v = some .test ∧ postState v = 11
    (s.headToCall = none ↔ ∀ a, ¬ waits a) ∧
    (∀ a, s.headToCall = some a ↔ waits a ∧ ∀ b, waits b → b ≠ a →
      let x := (s.entry a).view.arg
      let y := (s.entry b).view.arg
      y / 32 < x / 32 ∨ (y / 32 = x / 32 ∧ y % 32 < x % 32) ∨ (y = x ∧ a.toNat < b.toNat)))

/-- O39. ROUND_END at DISPOSE, whatever stands in its transmit queue. A RELEASE_CALL whose drop is still due is dropped
first, as MESSAGE_DROPPED drops it (O28), which leaves `r` (log 15); `q` is the queue that the round then leaves. A card
that came in the round and that the update keeps has its record line (R53, R176), which is produced at the round's end
(log 13) and ahead of the call decision (log 11), in the place of a waiting line of its address (log 38). Then the unit
calls the head its arbiter picks in the updated table: the call takes its place in the queue, ahead of notes that wait
there, with a place of the arrival queue reserved and the call timer started. It makes none while a call is outstanding
or a RELEASE_CALL is queued, with a full transmit queue, a stop, a HALT cause, a full record buffer or no free place. In
ROLE_CONFLICT it produces no line and makes no call, and entering it empties the queue; that an outstanding call stands
there is the model's choice (log 44). -/
def Obligations.CallQueuedAtRoundEnd : Prop :=
  ∀ (posts : List PostWord) (cell263 : Bool) (w : PostWord) (s : State),
    s.role = some .dispose → s.lif.round.posted = some w → s.roundDue = true →
    ∃ r t, exec .messageDropped s = .next r ∧ exec (.roundEnd posts cell263) s = .next t ∧
      (t.lif.roleConflict = false → ∃ d q, KeptCardLine r t d ∧ RoundEndQueue .dispose posts r q ∧
        (let may := r.dsu.call = none ∧ (∀ m ∈ q, m.kind ≠ .releaseCall) ∧ q.length < 4 ∧ r.dsu.stopCopy = false ∧
          r.dsu.halt = none ∧ d.recBuffer.length < 4 ∧ r.dsu.arrival.length < 6
         (∀ a, t.headToCall = some a → may →
          t.dsu = { d with call := some { head := a, returnPhase := false, timer := .running } } ∧
          t.txq = insertMsg { kind := .releaseCall, dest := 0#4 ++ a, body := [] } q) ∧
         (t.headToCall = none ∨ ¬ may → t.dsu = d ∧ t.txq = q))) ∧
      (t.lif.roleConflict = true →
        t.dsu.recBuffer = r.dsu.recBuffer ∧ t.dsu.recWaiters = r.dsu.recWaiters ∧ t.dsu.call = r.dsu.call) ∧
      (s.lif.roleConflict = false → t.lif.roleConflict = true → t.txq = []) ∧
      (s.lif.roleConflict = true → RoundEndQueue .dispose posts r t.txq)

/-- O40. ROUND_END at INSPECT, out of ROLE_CONFLICT. A direct docket's message whose drop is still due is dropped first,
as MESSAGE_DROPPED drops it (O28), which leaves `r` (log 15). Then what the decisions make of the transmit queue `q`
that the round leaves and of the intake unit. The infeed front first: offered when a head is chosen for it, its queued
offer withdrawn when no head is, moved to the direct queue as HOLD with NO_HEAD when no card covers it and the move can
be made. Then the direct front, as that leaves it: sent to the lowest DISPOSE address that posts READY or CALLING. That
the infeed front comes first is the model's choice (log 11). -/
def Obligations.OffersQueuedAtRoundEnd : Prop :=
  ∀ (posts : List PostWord) (cell263 : Bool) (w : PostWord) (s : State),
    s.role = some .inspect → s.lif.round.posted = some w → s.roundDue = true → s.lif.roleConflict = false →
    let has := fun (k : MsgKind) (l : List TxMsg) => ∃ m ∈ l, m.kind = k
    let unoffered := List.filter fun m : TxMsg => m.kind != .docketOffer
    ∃ r t q q1 u, exec .messageDropped s = .next r ∧ exec (.roundEnd posts cell263) s = .next t ∧
     (t.lif.roleConflict = false →
      RoundEndQueue .inspect posts r q ∧
      (r.ieu.infeed = [] → q1 = q ∧ u = r.ieu) ∧
      (∀ d rest, r.ieu.infeed = d :: rest → t.covered d = true →
        let may := ¬ has .docketOffer q ∧ q.length < 4 ∧ r.ieu.infeedCh = .idle ∧ r.ieu.state ≠ .estop
        u = r.ieu ∧
        (t.chosenHead d = none → q1 = unoffered q) ∧
        (∀ a, t.chosenHead d = some a → may →
          q1 = insertMsg { kind := .docketOffer, dest := 0x10, body := docketBody .docketOffer d } q) ∧
        (∀ a, t.chosenHead d = some a → ¬ may → q1 = q)) ∧
      (∀ d rest, r.ieu.infeed = d :: rest → t.covered d = false →
        let may := r.ieu.direct.length < 4 ∧ r.ieu.infeedCh = .idle ∧ r.ieu.stage ≠ .pulsing .stageBy ∧
          r.ieu.stage ≠ .owed .stageBy ∧ r.ieu.state ≠ .estop
        q1 = unoffered q ∧
        (may → u = { r.ieu with
          infeed := rest
          direct := r.ieu.direct ++ [{ d with intent := some .hold, reason := some .noHead }]
          infeedCh := .pulsing .infeedDivert
          stall := 0
          state := stateAfterInfeed r.ieu }) ∧
        (¬ may → u = r.ieu)) ∧
      (let may := ¬ has .docketDirect q1 ∧ q1.length < 4 ∧ u.bypass = .idle ∧ u.directFault = false ∧ u.state ≠ .estop
       (∀ d rest a, u.direct = d :: rest → t.disposeAddr = some a → may →
          t.txq = insertMsg { kind := .docketDirect, dest := 0#4 ++ a, body := docketBody .docketDirect d } q1) ∧
       (u.direct = [] ∨ t.disposeAddr = none ∨ ¬ may → t.txq = q1)) ∧
      t.ieu = u)

/-! ### The test head -/

/-- O41. A condition that is active and armed, with no response in force, latches and takes the head into SAFE: an
emergency stop in every state, a switch or abort edge, an open lid, a fill or ramp timer at the tick at which it equals
its length, the line silence in RAMPING, and a sample with a channel at a rail from FILLING to DRAINING. A VENT taken
with the pressure already down completes at once. The head reads its tick first, `z`, where the event is taken ahead of
the sample, and the count at the event has the tick in progress in it (log 3). In SAFE the stopped phase timer holds no
count (log 42). A rail sample whose pressure the ramp or the hold uses is O47's. A level or temperature rail in VENTING,
with the pressure below vent_done, enters SAFE from SETTLING with the lid locked: that the sample's progress comes ahead
of its rail report, and the arming again ahead of both, is the model's choice (log 9). In the other states a rail gives
nothing; and where SENSOR_RANGE is not armed, a level or temperature rail discards the window in progress and no more
(R133). -/
def Obligations.ConditionsTakeTheHeadToSafe : Prop :=
  ∀ (o : TickOrder) (p : Pins) (x : Sample) (h : HeadState) (s : State),
    s.role = some .test → s.tsq.state = some h → h ≠ .safe → s.ilk.inForce = none → s.ilk.latched = [] →
    let z := openTick o s
    let trips := fun (i : Instr) (c : Cause) (pins : Pins) =>
      ∃ t, exec i s = .next t ∧ EntersSafe c h z t ∧ t.inputs = pins
    let vents := fun (i : Instr) (c : Cause) (pins : Pins) =>
      (z.vented = false → ∃ t, exec i s = .next t ∧ EntersSafe c h z t ∧ t.inputs = pins) ∧
      (z.vented = true → ∃ t, exec i s = .next t ∧ VentedAtOnce c h z t ∧ t.inputs = pins)
    (.estop ∉ s.ilk.disarmed → trips (.estop o) .estop { z.inputs with estop := true }) ∧
    (s.ilk.pswArmed = true → trips (.psw o) .pressureSwitch { z.inputs with psw := true }) ∧
    (.lidOpen ∉ s.ilk.disarmed → h ∈ [.zeroing, .waitRamp, .ramping, .holding, .venting, .settling] →
      trips (.lidOpen o) .lidOpen { z.inputs with lidClosed := false }) ∧
    (s.ilk.abortArmed = true →
      h ∈ [.loading, .filling, .zeroing, .waitRamp, .ramping, .holding, .venting, .settling] →
      vents (.abort o) .aborted { z.inputs with abort := true }) ∧
    (∀ p, .fillTimeout ∉ s.ilk.disarmed → h = .filling → s.tsq.phase = some p → p.at o = s.params.fillTime * 20 →
      vents (.fillTimeout o) .fillTimeout z.inputs) ∧
    (∀ p, .rampTimeout ∉ s.ilk.disarmed → h = .ramping → s.tsq.phase = some p → p.at o = s.params.rampTime * 20 →
      vents (.rampTimeout o) .rampTimeout z.inputs) ∧
    (∀ p, s.tsq.phase = some p → p.at o ≠ s.params.fillTime * 20 → exec (.fillTimeout o) s = .next s) ∧
    (∀ p, s.tsq.phase = some p → p.at o ≠ s.params.rampTime * 20 → exec (.rampTimeout o) s = .next s) ∧
    (.lineSilence ∉ s.ilk.disarmed → h = .ramping → s.lif.silence = .running →
      let silent := openTick o { s with lif := { s.lif with silence := .expired, lineSilent := true } }
      (silent.vented = false →
        ∃ t, exec (.silenceExpiry o) s = .next t ∧ EntersSafe .lineSilence h silent t ∧ t.inputs = silent.inputs) ∧
      (silent.vented = true →
        ∃ t, exec (.silenceExpiry o) s = .next t ∧ VentedAtOnce .lineSilence h silent t ∧ t.inputs = silent.inputs)) ∧
    (let rail := fun code : BitVec 16 => code.toNat ≤ 15 ∨ 65520 ≤ code.toNat
    let q := convertPressure s.params x.press
    let run := exec (.sampleTick p x) s
    let tick := openTick (.beforeSample p x) s
    let present := fun c : Cause => c = .sensorRange ∨ (c = .estop ∧ p.estop = true) ∨
      (c = .lidOpen ∧ p.lidClosed = false) ∨ (c = .lineSilence ∧ s.lif.lineSilent = true) ∨
      ((c = .fillTimeout ∨ c = .rampTimeout) ∧ s.ilk.expired = some c)
    let seen := { tick with ilk := { tick.ilk with disarmed := s.ilk.disarmed.filter fun c => decide (present c) } }
    let locked := { seen with tsq := { seen.tsq with lidLock := true } }
    let tested := h ∈ [.filling, .zeroing, .waitRamp, .ramping, .holding, .venting, .settling, .draining]
    let unused := rail x.press ∨ (s.tsq.peakOwed = false ∧ h ≠ .ramping ∧ h ≠ .holding ∧
      (h = .venting → s.params.ventDone ≤ q))
    let w := s.msu.window
    rail x.level ∨ rail x.press ∨ rail x.temp →
      (.sensorRange ∉ s.ilk.disarmed → tested → unused →
        ∃ t, run = .next t ∧ EntersSafe .sensorRange h seen t ∧ t.inputs = p) ∧
      (.sensorRange ∉ s.ilk.disarmed → h = .venting → ¬ rail x.press → q < s.params.ventDone →
        ∃ t, run = .next t ∧ EntersSafe .sensorRange .settling locked t ∧ t.inputs = p) ∧
      (¬ tested → ∃ t, run = .next t ∧ t.tsq.state = some h ∧ t.ilk.inForce = none ∧ t.ilk.latched = []) ∧
      (∀ c, .sensorRange ∈ s.ilk.disarmed → rail x.level ∨ rail x.temp →
        (h = .zeroing ∨ h = .settling ∨ (h = .holding ∧ rail x.press ∧ s.msu.holdExpired = true)) →
        s.tsq.phase = some c → c.fresh = false → w.skip = 0 → w.shut = false →
        ∃ t, run = .next t ∧ t.tsq.state = some h ∧ t.msu.window = { w with
          count := 0, reference := 0, crossings := 0, levelSum := 0, tempSum := 0 }))

/-- O42. In SAFE, a condition of higher priority than the one in force takes over, with the response timer at 0 and the
other condition still latched; one of lower priority stays latched and is not taken. It is said of every condition whose
cause can arise in SAFE: ESTOP, PRESSURE_SWITCH, SENSOR_RANGE, LID_OPEN and ABORTED, each while it is active in the
state that SAFE was entered from. A second edge of the switch while its own response is in force leaves no trace but the
disarmed input and the tick that is read with it (log 3). -/
def Obligations.HigherPriorityPreempts : Prop :=
  ∀ (o : TickOrder) (f : Cause) (s : State),
    s.role = some .test → s.tsq.state = some .safe → s.ilk.inForce = some f → s.topLatched = some f →
    let fromOne := fun states : List HeadState => ∃ h ∈ states, s.tsq.safeFrom = some h
    let takes := fun (c : Cause) (timer : TickCounter) (t : State) =>
      t.tsq.state = some .safe ∧ t.ilk.latched = s.ilk.latched ++ [c] ∧ t.ilk.marks = s.ilk.marks ∧
      (c.code < f.code → t.ilk.inForce = some c ∧ t.ilk.timer.ticks = 0) ∧
      (f.code < c.code → t.ilk.inForce = some f ∧ t.ilk.timer = timer) ∧
      (s.tsq.safeFrom = none → t.tsq.docket = s.tsq.docket) ∧
      (s.tsq.safeFrom.isSome = true → t.tsq.docket = s.tsq.docket.map (Docket.onTest fun x => x.append c)) ∧
      t.outsideHead = s.outsideHead
    (f ≠ .estop → .estop ∉ s.ilk.disarmed → .estop ∉ s.ilk.latched →
      ∃ t, exec (.estop o) s = .next t ∧ takes .estop s.ilk.timer t) ∧
    (f ≠ .pressureSwitch → s.ilk.pswArmed = true → .pressureSwitch ∉ s.ilk.latched →
      ∃ t, exec (.psw o) s = .next t ∧ takes .pressureSwitch s.ilk.timer t ∧ t.ilk.pswArmed = false) ∧
    (f ≠ .lidOpen → .lidOpen ∉ s.ilk.disarmed → .lidOpen ∉ s.ilk.latched →
      fromOne [.zeroing, .waitRamp, .ramping, .holding, .venting, .settling] →
      ∃ t, exec (.lidOpen o) s = .next t ∧ takes .lidOpen s.ilk.timer t) ∧
    (f ≠ .aborted → s.ilk.abortArmed = true → .aborted ∉ s.ilk.latched → f.code < 14 →
      fromOne [.loading, .filling, .zeroing, .waitRamp, .ramping, .holding, .venting, .settling] →
      ∃ t, exec (.abort o) s = .next t ∧ takes .aborted s.ilk.timer t ∧ t.ilk.abortArmed = false) ∧
    (∀ (p : Pins) (x : Sample), f ≠ .sensorRange → .sensorRange ∉ s.ilk.disarmed → .sensorRange ∉ s.ilk.latched →
      fromOne [.filling, .zeroing, .waitRamp, .ramping, .holding, .venting, .settling, .draining] →
      s.tsq.peakOwed = false → (∃ code ∈ [x.level, x.press, x.temp], 65520 ≤ code.toNat ∨ code.toNat ≤ 15) →
      ∃ t, exec (.sampleTick p x) s = .next t ∧ takes .sensorRange s.ilk.timer.advance t) ∧
    (f = .pressureSwitch → s.ilk.pswArmed = true →
      let z := openTick o s
      exec (.psw o) s = .next
        { z with inputs := { z.inputs with psw := true }, ilk := { z.ilk with pswArmed := false } })

/-- O43. RESPONSE_COMPLETE: a response that has completed leaves the latch, a sticky one leaves its mark, and the
latched condition of highest priority is taken next, but for VENT conditions with the pressure down, which complete with
it. With none left the head leaves SAFE: to DRAINING or DONE after a test with its verdict assembled, or back to the
state that a SAFE outside a test was entered from: IDLE with its conditions of entry, DONE, UNLOADING with the gate open
again exactly when its return has been accepted, or OUT_OF_SERVICE with its cause. That the return state and, in IDLE,
the cause of OUT_OF_SERVICE are cleared then, and that the response timer keeps its count with no response in force, is
the model's choice (logs 39, 40). The inputs, the measurement unit and the admission logic stay. A response that has not
completed goes on. -/
def Obligations.ResponseCompletes : Prop :=
  ∀ (c : Cause) (s : State),
    s.role = some .test → s.tsq.state = some .safe → s.ilk.inForce = some c →
    let dwell := s.params.tripDwell * 20 ≤ s.ilk.timer.ticks
    let done : Prop := if c.code ≤ 5 then
        dwell ∧ (s.vented = true ∨ s.msu.pressRail = true) ∧ (c = .estop → s.inputs.estop = false)
      else s.vented = true ∨ (s.msu.pressRail = true ∧ dwell)
    let marked := fun l : List Cause =>
      ∀ x, x ∈ l ↔ x ∈ s.ilk.marks ∨ (x = c ∧ (c = .overpressure ∨ c = .pressureSwitch ∨ c = .sensorRange))
    (¬ done → exec .responseComplete s = .next s) ∧
    (done → (∀ x ∈ s.ilk.latched, x = c ∨ (5 < x.code ∧ s.vented = true)) →
      ∃ t, exec .responseComplete s = .next t ∧
        t.ilk = { s.ilk with inForce := none, latched := [], marks := t.ilk.marks } ∧ marked t.ilk.marks ∧
        t.inputs = s.inputs ∧ t.msu = s.msu ∧ t.adm = s.adm ∧
        (∀ h, s.tsq.safeFrom = some h →
          t.tsq.state = (if s.inputs.seat then some .draining else some .done) ∧ t.tsq.safeFrom = none ∧
          t.tsq.docket = s.tsq.docket.map (fun d => d.onTest (assembleVerdict s.params d))) ∧
        (s.tsq.safeFrom = none → s.tsq.returnState.isSome = true →
          t.tsq.docket = s.tsq.docket ∧ t.tsq.returnState = none) ∧
        (s.tsq.safeFrom = none → s.tsq.returnState = some .idle →
          IdleOrOutOfService s.inputs.seat t.ilk.marks t) ∧
        (s.tsq.safeFrom = none → s.tsq.returnState = some .done →
          t.tsq.state = some .done ∧ t.tsq.doneAge = 0 ∧
          (t.tsq.doneUrgent = true ↔ t.ilk.marks ≠ [] ∨
            ∃ d x, s.tsq.docket = some d ∧ d.test = some x ∧ x.verdict ≠ .pass)) ∧
        (s.tsq.safeFrom = none → s.tsq.returnState = some .unloading →
          t.tsq.state = some .unloading ∧ t.tsq.gateOpen = s.tsq.gateFlag ∧ t.tsq.gateFlag = s.tsq.gateFlag ∧
          t.tsq.caller = s.tsq.caller ∧
          t.tsq.phase = (if s.tsq.gateFlag then some { ticks := 0, fresh := s.tsq.tickOpen } else none)) ∧
        (∀ k, s.tsq.safeFrom = none → s.tsq.returnState = some .outOfService → s.tsq.oosCause = some k →
          t.tsq.state = some .outOfService ∧ t.tsq.oosCause = some k ∧ t.tsq.gateOpen = false ∧
          t.tsq.lidLock = false) ∧
        t.outsideHead = s.outsideHead) ∧
    (∀ d, done → d ∈ s.ilk.latched → d ≠ c → (∀ x ∈ s.ilk.latched, x ≠ c → d.code ≤ x.code) →
      (d.code ≤ 5 ∨ s.vented = false) →
      ∃ l, marked l ∧ exec .responseComplete s = .next
        { s with ilk := { s.ilk with
            inForce := some d, latched := s.ilk.latched.filter (fun x => x != c), marks := l
            timer := { ticks := 0, fresh := s.tsq.tickOpen } } })

/-- O44. The head's inputs and timers move it on: SEAT from LOADING to FILLING and from IDLE to OUT_OF_SERVICE with
ORPHAN, the lid locks it in FILLING, a complete fill takes it to ZEROING with a fresh window, the load timer to DONE
with a test not made, the drain timer to DONE. A timer expires at the tick at which its count equals its length, and at
no other. The head reads its tick first, `z`, where the event is taken ahead of the sample (log 3). The model's own
choices: DONE records no cause of OUT_OF_SERVICE (log 39), the idle age keeps its count once IDLE is left (log 42), and
the urgent flag of WAIT_RAMP comes on while the line is silent too (log 43). -/
def Obligations.HeadMovesOn : Prop :=
  ∀ (o : TickOrder) (s : State), s.role = some .test →
    let z := openTick o s
    let fresh : TickCounter := { ticks := 0, fresh := z.tsq.tickOpen }
    (s.tsq.state = some .loading → exec (.seatActive o) s = .next
      { z with
        inputs := { z.inputs with seat := true }
        tsq := { z.tsq with state := some .filling, phase := some fresh } }) ∧
    (s.tsq.state = some .idle → exec (.seatActive o) s = .next
      { z with
        inputs := { z.inputs with seat := true }
        tsq := { z.tsq with
          state := some .outOfService, oosCause := some .orphan, phase := some fresh, gateOpen := false
          lidLock := false } }) ∧
    (s.tsq.state ≠ some .loading → s.tsq.state ≠ some .idle → exec (.seatActive o) s = .next
      { z with inputs := { z.inputs with seat := true } }) ∧
    (exec (.lidClosed o) s = .next
      { z with
        inputs := { z.inputs with lidClosed := true }
        tsq := { z.tsq with lidLock := s.tsq.lidLock || s.tsq.state == some .filling } }) ∧
    (s.tsq.state = some .filling → exec (.fillComplete o) s = .next
      { z with
        inputs := { z.inputs with jacketFull := true, bleedWet := true }
        tsq := { z.tsq with state := some .zeroing, phase := some fresh, lidLock := true }
        msu := { z.msu with window := { skip := s.params.settleSkip } } }) ∧
    (s.tsq.state ≠ some .filling → exec (.fillComplete o) s = .next
      { z with inputs := { z.inputs with jacketFull := true, bleedWet := true } }) ∧
    (∀ p d x y, s.tsq.state = some .loading → s.tsq.phase = some p → s.tsq.docket = some d → d.test = some x →
      y = { x with noCylinder := true, verdict := .notTested, cause := some .loadTimeout } →
      (p.at o = s.params.loadTime * 20 → exec (.loadTimeout o) s = .next
        { z with
          tsq := { z.tsq with
            state := some .done, phase := some fresh, doneAge := 0, doneUrgent := true
            oosCause := none, gateOpen := false, lidLock := false
            docket := some { d with test := some y } } }) ∧
      (p.at o ≠ s.params.loadTime * 20 → exec (.loadTimeout o) s = .next s)) ∧
    (∀ p d x, s.tsq.state = some .draining → s.tsq.phase = some p → s.tsq.docket = some d → d.test = some x →
      (p.at o = s.params.drainTime * 20 → exec (.drainTimerExpiry o) s = .next
        { z with
          tsq := { z.tsq with
            state := some .done, phase := some fresh, doneAge := 0
            doneUrgent := x.verdict != .pass || !s.ilk.marks.isEmpty
            oosCause := none, gateOpen := false, lidLock := false } }) ∧
      (p.at o ≠ s.params.drainTime * 20 → exec (.drainTimerExpiry o) s = .next s)) ∧
    (∀ p d, s.tsq.state = some .holding → s.tsq.phase = some p → s.tsq.docket = some d →
      (p.at o = d.holdTime.getD 0 * 20 → exec (.holdTimerExpiry o) s = .next
        { z with msu := { z.msu with holdExpired := true } }) ∧
      (p.at o ≠ d.holdTime.getD 0 * 20 → exec (.holdTimerExpiry o) s = .next s)) ∧
    (∀ p, s.tsq.state = some .waitRamp → s.tsq.phase = some p →
      (p.at o = s.params.rampPatience * 20 + 1 → exec (.urgentFlagSet o) s = .next
        { z with adm := { z.adm with urgent := true } }) ∧
      (p.at o ≠ s.params.rampPatience * 20 + 1 → exec (.urgentFlagSet o) s = .next s))

/-- O45. The end of a head's round trip: with the gate open SEAT inactive and UNLOAD_CLEAR active complete the unload,
to IDLE or, with a sticky mark, to OUT_OF_SERVICE; the unload timer, at the tick at which it equals its length, takes
the head to OUT_OF_SERVICE. A CLEAR edge there clears every mark whose cause is removed and, its own cause removed,
leaves for DONE with a docket or for IDLE, with its conditions of entry, without; elsewhere it only disarms the input.
The head reads its tick first, `z`, and judges the causes by it, where the event is taken ahead of the sample (log 3).
The model's own choices: the caller stays recorded at the unload timeout (log 21), and DONE and IDLE record no cause of
OUT_OF_SERVICE (log 39). -/
def Obligations.UnloadAndClear : Prop :=
  ∀ (o : TickOrder) (s : State), s.role = some .test →
    let z := openTick o s
    (s.tsq.state = some .unloading → s.tsq.gateOpen = true →
      ∃ t, exec (.unloadComplete o) s = .next t ∧ IdleOrOutOfService false s.ilk.marks t ∧ t.tsq.caller = none ∧
        t.tsq.gateFlag = false ∧ t.tsq.docket = s.tsq.docket ∧ t.ilk = z.ilk ∧ t.msu = z.msu ∧ t.adm = z.adm ∧
        t.inputs = { z.inputs with seat := false, unloadClear := true } ∧ t.outsideHead = s.outsideHead) ∧
    (s.tsq.state ≠ some .unloading ∨ s.tsq.gateOpen = false → exec (.unloadComplete o) s = .next
      { z with inputs := { z.inputs with seat := false, unloadClear := true } }) ∧
    (∀ p, s.tsq.state = some .unloading → s.tsq.gateOpen = true → s.tsq.phase = some p →
      (p.at o = s.params.unloadTime * 20 →
        ∃ t, exec (.unloadTimeout o) s = .next t ∧ t.tsq.state = some .outOfService ∧
          t.tsq.oosCause = some .unloadTimeout ∧ t.tsq.gateOpen = false ∧ t.tsq.caller = s.tsq.caller ∧
          t = { z with tsq := t.tsq } ∧ t.tsq.docket = s.tsq.docket) ∧
      (p.at o ≠ s.params.unloadTime * 20 → exec (.unloadTimeout o) s = .next s)) ∧
    (s.ilk.clearArmed = false → exec (.clearEdge o) s = .next s) ∧
    (s.ilk.clearArmed = true → s.tsq.state ≠ some .outOfService → exec (.clearEdge o) s = .next
      { z with inputs := { z.inputs with clear := true }, ilk := { z.ilk with clearArmed := false } }) ∧
    (∀ k, s.ilk.clearArmed = true → s.tsq.state = some .outOfService → s.tsq.oosCause = some k →
      k ∈ [.overpressure, .pressureSwitch, .sensorRange, .handoffFailed, .unloadTimeout, .orphan] →
      ∃ t, exec (.clearEdge o) s = .next t ∧
        (let removed := k = .handoffFailed ∨ (k = .orphan ∧ z.inputs.seat = false) ∨
            (k = .unloadTimeout ∧ z.inputs.seat = false ∧ z.inputs.unloadClear = true) ∨
            (k ∈ [.overpressure, .pressureSwitch, .sensorRange] ∧ t.ilk.marks = [])
         t.tsq.docket = s.tsq.docket ∧ t.outsideHead = s.outsideHead ∧
         t.inputs = { z.inputs with clear := true } ∧ t.msu = z.msu ∧ t.adm = z.adm ∧
         t.ilk = { z.ilk with clearArmed := false, marks := t.ilk.marks } ∧
         (∀ c, c ∈ t.ilk.marks ↔ c ∈ s.ilk.marks ∧
           ¬ ((c = .overpressure ∧ z.vented = true) ∨ (c = .pressureSwitch ∧ z.inputs.psw = false) ∨
              (c = .sensorRange ∧ z.msu.levelRail = false ∧ z.msu.pressRail = false ∧ z.msu.tempRail = false))) ∧
         (removed → s.tsq.docket.isSome = true →
           t.tsq.state = some .done ∧ t.tsq.doneAge = 0 ∧ t.tsq.oosCause = none ∧
           (t.tsq.doneUrgent = true ↔ t.ilk.marks ≠ [] ∨
             ∃ d x, s.tsq.docket = some d ∧ d.test = some x ∧ x.verdict ≠ .pass)) ∧
         (removed → s.tsq.docket = none → IdleOrOutOfService z.inputs.seat t.ilk.marks t) ∧
         (¬ removed → t.tsq = z.tsq)))

/-- O46. What a tick senses. An event of a head that is taken ahead of the sample reads the inputs and the channels of
its tick and leaves it open; one after it reads nothing anew (log 3). SAMPLE_TICK takes the inputs and the sample: at
every role the levels read; at a head the rail of each channel, the current pressure by R126, and the edge inputs armed
when they read inactive, and it closes the tick (logs 3 and 10), and a condition whose cause is absent at the tick is
armed again, unless a report of this sample disarms it: the cause of a timer expiry taken ahead of the sample is present
until this tick closes (R145); at DISPOSE the CLEAR input armed and every arrival timer advanced to its length (log 25).
First, the arithmetic of a sample: the conversions of a pressure and a temperature code (R126, R127), and that every
quotient is rounded to the nearest integer, a tie away from zero (R128). -/
def Obligations.SampleTickSenses : Prop :=
  (∀ (p : Params) (code : BitVec 16),
    convertPressure p code = (if code.toNat ≤ p.pOff then 0 else roundDivNat ((code.toNat - p.pOff) * p.pGain) 4096) ∧
    convertTemp p code = roundDiv (((code.toNat : Int) - p.tOff) * p.tGain) 4096) ∧
  (∀ (a : Int) (b : Nat), 0 < b →
    let off := |roundDiv a b * b - a|
    2 * off ≤ b ∧ (2 * off = b → |a| < |roundDiv a b * b|)) ∧
  (∀ a b : Nat, roundDiv a b = roundDivNat a b) ∧
  (∀ s : State, openTick .afterSample s = s) ∧
  ∀ (p : Pins) (x : Sample) (s : State),
    let rail := fun code : BitVec 16 => decide (65520 ≤ code.toNat ∨ code.toNat ≤ 15)
    let pressure := if rail x.press then none
      else if x.press.toNat ≤ s.params.pOff then some 0
      else some ((2 * ((x.press.toNat - s.params.pOff) * s.params.pGain) + 4096) / (2 * 4096))
    (openTick (.beforeSample p x) s =
      { s with
        inputs := p
        tsq := { s.tsq with tickOpen := true }
        ilk := { s.ilk with
          pswArmed := s.ilk.pswArmed || !p.psw, abortArmed := s.ilk.abortArmed || !p.abort
          clearArmed := s.ilk.clearArmed || !p.clear }
        msu := { s.msu with
          levelRail := rail x.level, pressRail := rail x.press, tempRail := rail x.temp, pressure := pressure } }) ∧
    (s.role = some .inspect → exec (.sampleTick p x) s = .next { s with inputs := p }) ∧
    (s.role = some .dispose → exec (.sampleTick p x) s = .next
      { s with
        inputs := p
        dsu := { s.dsu with
          clearArmed := s.dsu.clearArmed || !p.clear
          arrival := s.dsu.arrival.map fun a =>
            if a.ticks < s.params.arrivalTime * 20 then { a with ticks := a.ticks + 1 } else a } }) ∧
    (s.role = some .test →
      ∃ t, exec (.sampleTick p x) s = .next t ∧ t.inputs = p ∧ t.tsq.tickOpen = false ∧ t.tsq.peakOwed = false ∧
        t.msu.levelRail = rail x.level ∧ t.msu.pressRail = rail x.press ∧ t.msu.tempRail = rail x.temp ∧
        t.msu.pressure = pressure ∧
        t.ilk.pswArmed = (s.ilk.pswArmed || !p.psw) ∧ t.ilk.abortArmed = (s.ilk.abortArmed || !p.abort) ∧
        t.ilk.clearArmed = (s.ilk.clearArmed || !p.clear) ∧ t.outsideHead = s.outsideHead ∧ t.ilk.expired = none ∧
        (let present := fun c : Cause =>
          (c = .sensorRange ∧ (rail x.level || rail x.press || rail x.temp) = true) ∨ (c = .estop ∧ p.estop = true) ∨
          (c = .lidOpen ∧ p.lidClosed = false) ∨ (c = .lineSilence ∧ s.lif.lineSilent = true) ∨
          ((c = .fillTimeout ∨ c = .rampTimeout) ∧ s.ilk.expired = some c)
         (∀ c ∈ s.ilk.disarmed, present c → c ∈ t.ilk.disarmed) ∧
         (∀ c ∈ t.ilk.disarmed, present c ∨
           c ∈ [.overpressure, .leakDrop, .overband, .unsettled, .creep, .tempRange]))) ∧
    (∀ h c n, s.role = some .test → s.tsq.state = some h → s.tsq.phase = some n →
      ((h, c) = (.filling, .fillTimeout) ∧ n.at (.beforeSample p x) = s.params.fillTime * 20 →
        ∃ t, exec (.fillTimeout (.beforeSample p x)) s = .next t ∧ t.ilk.expired = some c) ∧
      ((h, c) = (.ramping, .rampTimeout) ∧ n.at (.beforeSample p x) = s.params.rampTime * 20 →
        ∃ t, exec (.rampTimeout (.beforeSample p x)) s = .next t ∧ t.ilk.expired = some c))

/-- O47. What a sample with its pressure code in range does in the ramp, the hold and the vent: at test pressure the
head enters HOLDING with its first hold sample; a hold sample, the first included, with the level or the temperature at
a rail gives SENSOR_RANGE, at or over P_cond OVERPRESSURE, over P_top OVERBAND, under P_low LEAK_DROP, each listed in
the docket in that order, and the first by priority is taken, a VENT with the pressure already down completing at once;
under vent_done the head enters SETTLING (with a rail: O41). That the reports are taken ahead of the window judged by
the same sample, and the re-arming ahead of them, is log 9's order of stages; the inputs and the codes are those of the
tick (log 3). An event ahead of its tick's sample that takes the head out of the ramp or the hold leaves it that
sample's pressure: the sample raises peak_pressure and is used for nothing else of the ramp and the hold (R97, R136;
that this holds of every such event, log 10), and at a pressure rail not even that. In SAFE, DRAINING and DONE with no
rail nothing else changes but the timers and the channels as read, in a state in which nothing latched ranks above the
response in force (O10). -/
def Obligations.SamplesDriveRampHoldVent : Prop :=
  (∀ (p : Pins) (x : Sample) (i : Instr) (s : State),
    let o := TickOrder.beforeSample p x
    s.role = some .test → s.tsq.state = some .ramping ∨ s.tsq.state = some .holding →
    s.ilk.inForce = none → s.ilk.latched = [] →
    i ∈ [.estop o, .psw o, .lidOpen o, .abort o, .rampTimeout o, .silenceExpiry o] →
    ∃ t, exec i s = .next t ∧ (t.tsq.state ≠ s.tsq.state →
      t.tsq.peakOwed = true ∧ t.tsq.state ∈ [some .safe, some .draining, some .done])) ∧
  (∀ (p : Pins) (x : Sample) (d : Docket) (y : TestPart) (s : State),
    s.role = some .test → s.tsq.peakOwed = true → s.tsq.docket = some d → d.test = some y →
    s.tsq.state ∉ [some .ramping, some .holding, some .venting] →
    let railed := fun code : BitVec 16 => code.toNat ≤ 15 ∨ 65520 ≤ code.toNat
    let q := convertPressure s.params x.press
    let unowed := { s.tsq with peakOwed := false }
    let peaked := { unowed with docket := some { d with test := some { y with peak := max y.peak (min q 65535) } } }
    (¬ railed x.press → exec (.sampleTick p x) s = exec (.sampleTick p x) { s with tsq := peaked }) ∧
    (railed x.press → exec (.sampleTick p x) s = exec (.sampleTick p x) { s with tsq := unowed }) ∧
    (s.tsq.state ∈ [some .safe, some .draining, some .done] → SafeMatchesResponse s →
      ¬ railed x.level → ¬ railed x.press → ¬ railed x.temp →
      ∃ t, exec (.sampleTick p x) s = .next t ∧
        t.tsq = { peaked with phase := t.tsq.phase, tickOpen := false } ∧
        t.msu = { s.msu with levelRail := false, pressRail := false, tempRail := false, pressure := some q } ∧
        t.adm = s.adm ∧ t.ilk.latched = s.ilk.latched ∧ t.ilk.inForce = s.ilk.inForce ∧ t.ilk.marks = s.ilk.marks)) ∧
  ∀ (p : Pins) (x : Sample) (h : HeadState) (l : Limits) (d : Docket) (y : TestPart) (s : State),
    s.role = some .test → s.tsq.state = some h → s.ilk.inForce = none → s.ilk.latched = [] →
    s.msu.limits = some l → s.tsq.docket = some d → d.test = some y →
    16 ≤ x.press.toNat → x.press.toNat < 65520 →
    let railed := ¬ (16 ≤ x.level.toNat ∧ x.level.toNat < 65520 ∧ 16 ≤ x.temp.toNat ∧ x.temp.toNat < 65520)
    (railed → .sensorRange ∉ s.ilk.disarmed) →
    let q := convertPressure s.params x.press
    let run := exec (.sampleTick p x) s
    let peak := max y.peak (min q 65535)
    let sum := if h = .ramping then q else s.msu.holdSum + q
    let count := if h = .ramping then 1 else s.msu.holdCount + 1
    let ended := fun z : TestPart =>
      { z with holdEnd := some s.roundStamp, holdMean := some (min 65535 (roundDivNat sum count)) }
    let held := if h = .ramping then { y with peak := peak, holdStart := some s.roundStamp } else { y with peak := peak }
    let listed :=
      let z0 := if railed then held.append .sensorRange else held
      let z1 := if l.cond ≤ q then z0.append .overpressure else z0
      let z2 := if l.top < q then z1.append .overband else z1
      if q < l.low then z2.append .leakDrop else z2
    let reports := railed ∨ l.cond ≤ q ∨ l.top < q ∨ q < l.low
    let first : Cause := if l.cond ≤ q then .overpressure else if railed then .sensorRange
      else if q < l.low then .leakDrop else .overband
    let w := s.msu.window
    let level := x.level.toNat
    let strays := s.params.tStab < level - w.reference ∨ s.params.tStab < w.reference - level
    let crossings := if strays then w.crossings + 1 else w.crossings
    let mean := roundDiv (w.tempSum + convertTemp s.params x.temp) 16
    let total := { y with peak := peak, st := some (w.levelSum + level), tt := some mean.toNat }
    (h = .ramping → q < d.testPressure → ¬ railed →
      ∃ t, run = .next t ∧ t.tsq.state = some .ramping ∧
        t.tsq.docket = some { d with test := some { y with peak := peak } }) ∧
    (h = .ramping → q < d.testPressure → railed →
      ∃ t, run = .next t ∧ t.tsq.state = some .safe ∧ t.ilk.inForce = some .sensorRange ∧ t.ilk.timer.ticks = 0 ∧
        t.tsq.safeFrom = some .ramping ∧ t.msu.window = {} ∧
        t.tsq.docket = some { d with test := some ({ y with peak := peak }.append .sensorRange) }) ∧
    (h = .ramping → d.testPressure ≤ q → ¬ reports →
      ∃ t, run = .next t ∧ t.tsq.state = some .holding ∧ t.tsq.phase = some { ticks := 0, fresh := false } ∧
        t.tsq.docket = some { d with test := some held } ∧
        t.msu.holdSum = q ∧ t.msu.holdCount = 1 ∧ t.msu.window = { skip := s.params.settleSkip } ∧
        (headOutputs t).pressV = false ∧ (headOutputs t).pumpDemand = false) ∧
    (h = .holding ∨ (h = .ramping ∧ d.testPressure ≤ q) → reports →
      ∃ t, run = .next t ∧
        (l.cond ≤ q ∨ railed ∨ s.params.ventDone ≤ q →
          t.tsq.state = some .safe ∧ t.ilk.inForce = some first ∧ t.ilk.timer.ticks = 0 ∧
          t.tsq.safeFrom = some .holding ∧ t.msu.window = {} ∧
          t.tsq.docket = some { d with test := some (ended listed) }) ∧
        (q < l.cond → ¬ railed → q < s.params.ventDone →
          t.tsq.state = (if p.seat then some .draining else some .done) ∧ t.ilk.inForce = none ∧ t.ilk.latched = [] ∧
          t.tsq.docket = some { d with test := some (assembleVerdict s.params d (ended listed)) })) ∧
    (∀ c, h = .holding → ¬ reports → s.tsq.phase = some c → c.fresh = false →
      s.msu.holdExpired = true → w.skip = 0 → w.shut = false → w.count = 15 → crossings ≤ 2 → 0 ≤ mean → mean ≤ 5000 →
      ∃ t, run = .next t ∧ t.tsq.state = some .venting ∧
        t.tsq.docket = some { d with test := some (ended total) }) ∧
    (h = .holding → ¬ reports → 0 < s.msu.window.skip →
      ∃ t, run = .next t ∧ t.tsq.state = some .holding ∧ t.msu.holdSum = s.msu.holdSum + q ∧
        t.msu.holdCount = s.msu.holdCount + 1 ∧ t.tsq.docket = some { d with test := some { y with peak := peak } }) ∧
    (h = .venting → ¬ railed → q < s.params.ventDone →
      ∃ t, run = .next t ∧ t.tsq.state = some .settling ∧ t.msu.window = { skip := s.params.settleSkip } ∧
        t.tsq.docket = s.tsq.docket) ∧
    (h = .venting → ¬ railed → s.params.ventDone ≤ q →
      ∃ t, run = .next t ∧ t.tsq.state = some .venting ∧ t.tsq.docket = s.tsq.docket)

/-- O48. A sample in a window, taken in ZEROING or SETTLING, or in HOLDING within the pressure band, past the settle
skip, with no channel at a rail: the first sets the reference, a later one adds to the sums and, more than T_stab from
the reference, to the crossings; the sixteenth judges the window. In HOLDING windows begin with the hold timer's expiry.
Unstable, it is discarded and counted, and the eighth such gives UNSETTLED, in HOLDING the fourth CREEP; stable, its sums
are the reading, which moves the head on, or, with a mean temperature outside 0 to 5,000, TEMP_RANGE. Each of these
conditions, a VENT, completes at once with the pressure already below vent_done. The conversions and the rounding are
those of O46. The order of a sample's uses is the model's choice (log 9). -/
def Obligations.WindowsGiveReadings : Prop :=
  ∀ (p : Pins) (x : Sample) (h : HeadState) (c : TickCounter) (d : Docket) (y : TestPart) (s : State),
    let q := convertPressure s.params x.press
    s.role = some .test → s.tsq.state = some h → h = .zeroing ∨ h = .settling ∨ h = .holding →
    (h = .holding → ∃ l, s.msu.limits = some l ∧ l.low ≤ q ∧ q ≤ l.top ∧ q < l.cond) →
    s.tsq.phase = some c →
    c.fresh = false → s.ilk.inForce = none → s.ilk.latched = [] → s.tsq.docket = some d → d.test = some y →
    s.tsq.peakOwed = false → s.msu.window.shut = false →
    16 ≤ x.level.toNat → x.level.toNat < 65520 → 16 ≤ x.press.toNat → x.press.toNat < 65520 →
    16 ≤ x.temp.toNat → x.temp.toNat < 65520 →
    let begun := h = .holding → s.msu.holdExpired = true ∨
      ∃ n, d.holdTime = some n ∧ n * 20 ≤ min 65535 (c.ticks + 1)
    let w := s.msu.window
    let level := x.level.toNat
    let temp := convertTemp s.params x.temp
    let strays := s.params.tStab < level - w.reference ∨ s.params.tStab < w.reference - level
    let crossings := if strays then w.crossings + 1 else w.crossings
    let mean := roundDiv (w.tempSum + temp) 16
    let budget := if h = .holding then 4 else 8
    let ended := fun z : TestPart => if h = .holding then
        { z with
          holdEnd := some s.roundStamp
          holdMean := some (min 65535 (roundDivNat (s.msu.holdSum + q) (s.msu.holdCount + 1))) }
      else z
    let now := if h = .holding then { y with peak := max y.peak (min q 65535) } else y
    let zeroed := { y with s0 := some (w.levelSum + level), t0 := some mean.toNat, zeroStamp := some s.roundStamp }
    let total := { now with st := some (w.levelSum + level), tt := some mean.toNat }
    let settled := { y with sp := some (w.levelSum + level), tp := some mean.toNat }
    let run := exec (.sampleTick p x) s
    let stays := fun w' : Window => ∃ t, run = .next t ∧ t.tsq.state = some h ∧ t.msu.window = w' ∧
      t.tsq.docket = some { d with test := some now }
    let vents := fun k : Cause => ∃ t, run = .next t ∧ t.msu.window = {} ∧
      (s.params.ventDone ≤ q →
        t.tsq.state = some .safe ∧ t.tsq.safeFrom = some h ∧ t.ilk.inForce = some k ∧ t.ilk.timer.ticks = 0 ∧
        t.tsq.docket = some { d with test := some (ended (now.append k)) }) ∧
      (q < s.params.ventDone →
        t.tsq.state = (if p.seat then some .draining else some .done) ∧ t.tsq.lidLock = p.seat ∧
        t.ilk.inForce = none ∧ t.ilk.latched = [] ∧
        t.tsq.docket = some { d with test := some (assembleVerdict s.params d (ended (now.append k))) })
    (0 < w.skip → stays { w with skip := w.skip - 1 }) ∧
    (¬ begun → w.skip = 0 → d.holdTime.isSome = true → stays w) ∧
    (begun → w.skip = 0 → w.count = 0 →
      stays { w with count := 1, reference := level, crossings := 0, levelSum := level, tempSum := temp }) ∧
    (begun → w.skip = 0 → 0 < w.count → w.count < 15 → stays { w with
      count := w.count + 1, levelSum := w.levelSum + level, tempSum := w.tempSum + temp, crossings := crossings }) ∧
    (begun → w.skip = 0 → w.count = 15 → 3 ≤ crossings → w.failures + 1 < budget → stays { w with
      count := 0, reference := 0, crossings := 0, levelSum := 0, tempSum := 0, failures := w.failures + 1 }) ∧
    (begun → w.skip = 0 → w.count = 15 → 3 ≤ crossings → budget ≤ w.failures + 1 →
      vents (if h = .holding then .creep else .unsettled)) ∧
    (begun → w.skip = 0 → w.count = 15 → crossings ≤ 2 → (mean < 0 ∨ 5000 < mean) → vents .tempRange) ∧
    (h = .zeroing → w.skip = 0 → w.count = 15 → crossings ≤ 2 → 0 ≤ mean → mean ≤ 5000 →
      ∃ t, run = .next t ∧ t.tsq.state = some .waitRamp ∧ t.tsq.phase = some { ticks := 0, fresh := false } ∧
        t.adm.waitAge = 0 ∧ t.adm.urgent = false ∧
        t.tsq.docket = some { d with test := some zeroed }) ∧
    (h = .holding → begun → w.skip = 0 → w.count = 15 → crossings ≤ 2 → 0 ≤ mean → mean ≤ 5000 →
      ∃ t, run = .next t ∧ t.tsq.state = some .venting ∧ t.tsq.phase = some { ticks := 0, fresh := false } ∧
        t.tsq.docket = some { d with test := some (ended total) }) ∧
    (h = .settling → w.skip = 0 → w.count = 15 → crossings ≤ 2 → 0 ≤ mean → mean ≤ 5000 →
      ∃ t, run = .next t ∧ t.tsq.state = some .draining ∧ t.tsq.lidLock = true ∧
        t.tsq.docket = some { d with test := some (assembleVerdict s.params d settled) })

/-- O49. The arithmetic of R139, step by step: the first step that gives a verdict decides it, and the fields entered up
to that step stay. V(S) and corr(T) are the two terms of R138, each rounded once, as O46 says of the rounding. -/
def Obligations.ExpansionArithmeticSteps : Prop :=
  ∀ (p : Params) (d : Docket) (y : TestPart) (s0 st sp t0 tt tp : Nat),
    y.s0 = some s0 → y.st = some st → y.sp = some sp → y.t0 = some t0 → y.tt = some tt → y.tp = some tp →
    let vol := fun level : Nat => roundDiv (((level : Int) - s0) * p.gB) 16384
    let corr := fun temp : Nat => roundDiv ((p.cT : Int) * ((temp : Int) - t0)) 256
    let et := vol st - corr tt
    let raw := vol sp - corr tp
    let ep := max 0 raw
    let ratio := (ep * 10000 / et).toNat
    let z := arithmetic p d y
    (et < p.eTMin → z = { y with et := some et, verdict := .invalid, cause := some .noExpansion }) ∧
    ((p.eTMin : Int) ≤ et → raw < -(p.nUnder : Int) →
      z = { y with et := some et, verdict := .invalid, cause := some .negativePermanent }) ∧
    ((p.eTMin : Int) ≤ et → -(p.nUnder : Int) ≤ raw →
      (et < ep → z = { y with
        et := some et, ep := some ep, verdict := .invalid, cause := some .permExceedsTotal }) ∧
      (ep ≤ et → d.ratioLimit.getD 0 < ratio → z = { y with
        et := some et, ep := some ep, ratio := some ratio, ee := some (et - ep)
        verdict := .condemn, cause := some .expansionRatio }) ∧
      (∀ r, ep ≤ et → ratio ≤ d.ratioLimit.getD 0 → d.ree = some r → (r : Int) < et - ep → z = { y with
        et := some et, ep := some ep, ratio := some ratio, ee := some (et - ep)
        verdict := .condemn, cause := some .elasticOverRee }) ∧
      (ep ≤ et → ratio ≤ d.ratioLimit.getD 0 → (∀ r, d.ree = some r → et - ep ≤ (r : Int)) → z = { y with
        et := some et, ep := some ep, ratio := some ratio, ee := some (et - ep), verdict := .pass, cause := none })) ∧
    (z.verdict = .pass ∨ z.cause = some .expansionRatio ∨ z.cause = some .elasticOverRee →
      (p.eTMin : Int) ≤ et ∧ 0 ≤ ep ∧ ep ≤ et ∧ ratio ≤ 10000)

/-- O50. The verdict assembly. With OVERPRESSURE anywhere in the condition list the verdict is CONDEMN with that cause;
else with a code in the list it is INVALID with the first, and no arithmetic runs; with an empty list the arithmetic
gives it. Then the repeat rule: on a docket with retest_count 1 an INVALID of the listed causes becomes CONDEMN with
REPEAT_INVALID, its expansion fields kept; every other verdict is as it would be with retest_count 0. -/
def Obligations.RepeatRuleCondemns : Prop :=
  ∀ (p : Params) (d : Docket) (y : TestPart),
    let once := assembleVerdict p { d with retest := false } y
    let listed := once.verdict = .invalid ∧ ∃ c, once.cause = some c ∧
      c ∈ [Cause.leakDrop, .overband, .rampTimeout, .unsettled, .creep, .noExpansion, .negativePermanent, .permExceedsTotal]
    (.overpressure ∈ y.conditions → once = { y with verdict := .condemn, cause := some .overpressure }) ∧
    (∀ c rest, y.conditions = c :: rest → .overpressure ∉ y.conditions →
      once = { y with verdict := .invalid, cause := some c }) ∧
    (y.conditions = [] → once = arithmetic p d y) ∧
    (d.retest = true → listed →
      assembleVerdict p d y = { once with verdict := .condemn, cause := some .repeatInvalid }) ∧
    ((d.retest = false ∨ ¬ listed) → assembleVerdict p d y = once)

/-! ### Intake -/

/-- O51. The intake unit's own moves: a stop ends the pulses and withdraws the offer, at the end of its sending when one
is in progress; its end restores the state left with the entry conditions of READY and starts the owed pulses;
INFEED_CLEAR ends PURGE, and anywhere else, in a stop that left PURGE too, it changes nothing and must come again
(log 6); the state left stays recorded after the stop (log 42); a pulse that ends leaves its channel idle; the oldest reply is sent, its line feed after it (log 27). -/
def Obligations.IntakeStopsAndMoves : Prop :=
  ∀ s : State, s.role = some .inspect → s.lif.roleConflict = false →
    let stopped := fun c : Channel => match c with | .pulsing p => Channel.owed p | x => x
    let resumed := fun c : Channel => match c with | .owed p => Channel.pulsing p | x => x
    let ended := fun c : Channel => match c with | .pulsing _ => Channel.idle | x => x
    (s.ilk.stopFlag = false → exec .stopReported s = .next
      { s with
        inputs := { s.inputs with estop := true }
        ilk := { s.ilk with stopFlag := true }
        txq := s.txq.filterMap fun m =>
          if m.kind ≠ .docketOffer then some m
          else if m.contending = true ∧ s.sending = true then some { m with withdraw := true } else none
        ieu := { s.ieu with
          state := .estop, left := s.ieu.state, stage := stopped s.ieu.stage, infeedCh := stopped s.ieu.infeedCh
          bypass := stopped s.ieu.bypass } }) ∧
    (s.ilk.stopFlag = true → exec .stopReported s = .next s) ∧
    (s.ilk.stopFlag = true → s.ieu.state = .estop → s.ieu.left ≠ .estop → exec .stopEnded s = .next
      { s with
        inputs := { s.inputs with estop := false }
        ilk := { s.ilk with stopFlag := false }
        ieu := { s.ieu with
          state := if s.ieu.left = .ready ∨ s.ieu.left = .infeedFull then readyOrFull s.ieu.infeed s.ieu.directFault
            else s.ieu.left
          stage := resumed s.ieu.stage, infeedCh := resumed s.ieu.infeedCh, bypass := resumed s.ieu.bypass } }) ∧
    (s.ilk.stopFlag = false → exec .stopEnded s = .next s) ∧
    (s.ieu.state = .purge → exec .infeedClear s = .next
      { s with ieu := { s.ieu with
          state := if s.ieu.period.isSome then readyOrFull s.ieu.infeed s.ieu.directFault else .noPeriod } }) ∧
    (s.ieu.state ≠ .purge → exec .infeedClear s = .next s) ∧
    (exec (.pulseEnd .stage) s = .next { s with ieu := { s.ieu with stage := ended s.ieu.stage } }) ∧
    (exec (.pulseEnd .infeed) s = .next { s with ieu := { s.ieu with infeedCh := ended s.ieu.infeedCh } }) ∧
    (exec (.pulseEnd .bypass) s = .next { s with ieu := { s.ieu with bypass := ended s.ieu.bypass } }) ∧
    (∀ r rest, s.ports.waiting = r :: rest → exec .terminalReplySent s = .next
      { s with ports := { s.ports with waiting := rest, trmSent := some (replyText r ++ [0x0A]) } }) ∧
    (s.ports.waiting = [] → exec .terminalReplySent s = .next s)

/-- O52. READER_LINE: in READY a line that passes its checks creates the docket in work, with the identity hash of its
two fields, and one that fails gives the number of its first bad field; in any other state the line is answered BUSY.
The checks are those of Table 4-3: a field breaks when the line's fault fell in it or its form or its range breaks, a
missing one of the first eight reads empty, and there is no tenth. A fault on a separator counts in the field before it,
which is the model's choice (log 19), and so is the retest_count 0 of the new docket (log 41). -/
def Obligations.ReaderLineTaken : Prop :=
  (∀ (l : PortLine) (s : State), s.role = some .inspect → lineHanded l = true →
    let b := assembleLine 64 l
    let ports := fun r : Reply => { s.ports with lineA := b, waiting := repliedWith r s.ports }
    (s.lif.roleConflict = false → s.ieu.state = .ready → readerFault b = none →
      exec (.readerLine l) s = .next
        { s with
          ports := ports (.okId (readerDocket b).mfr (readerDocket b).serial)
          ieu := { s.ieu with work := some (readerDocket b), state := .inspecting } }) ∧
    (∀ n, s.lif.roleConflict = false → s.ieu.state = .ready → readerFault b = some n →
      exec (.readerLine l) s = .next { s with ports := ports (.idRejected n) }) ∧
    (s.ieu.state ≠ .ready ∨ s.lif.roleConflict = true →
      exec (.readerLine l) s = .next { s with ports := ports .busy })) ∧
  (∀ b : LineBuffer,
    (readerFault b = none ↔ ∀ n, 1 ≤ n → n ≤ 10 → ¬ ReaderFieldBreaks b n) ∧
    (∀ n, readerFault b = some n ↔
      1 ≤ n ∧ n ≤ 10 ∧ ReaderFieldBreaks b n ∧ ∀ m, 1 ≤ m → m < n → ¬ ReaderFieldBreaks b m)) ∧
  (∀ (b : LineBuffer) (m n c tp wc ta my yy ree : Text),
    (readerFields b = [m, n, c, tp, wc, ta, my, yy] ∨ readerFields b = [m, n, c, tp, wc, ta, my, yy, ree]) →
    readerDocket b =
      { mfr := m, serial := n, hash := crc16Bytes (m ++ n), cls := decValue c, testPressure := decValue tp
        waterCapacity := decValue wc, tare := decValue ta
        ree := if (readerFields b).length = 9 then some (decValue ree) else none
        lastMonth := decValue (my.take 2), lastYear := decValue (my.drop 3), mfgYear := decValue yy }) ∧
  (crc16Bytes (ascii "123" ++ ascii "456789") = 0x29B1)

/-- O53. MASS and CLEAR, whole. MASS takes one argument of 1 to 7 decimal digits, clamps it to 1..30,000 and writes it
as the measured mass of the docket in work; its reply gives the value stored. CLEAR clears a standing direct fault,
answers OK and moves the unit on (R55); with no fault standing it answers ERR NOFAULT and has no effect. An entry of
another form answers ERR SYNTAX (R60). A reply waits unless 4 lines wait already, the one being sent among them
(log 36). -/
def Obligations.MassAndClearEntries : Prop :=
  ∀ (l : PortLine) (s : State),
    s.role = some .inspect → s.lif.roleConflict = false → s.ieu.state ≠ .estop → lineHanded l = true →
    (assembleLine 32 l).badAt = none →
    let b := assembleLine 32 l
    let ports := fun r : Reply => { s.ports with lineB := b, waiting := repliedWith r s.ports }
    (∀ d n, s.ieu.state = .inspecting → s.ieu.closePending = false → s.ieu.work = some d →
      entryArgs b = [n] → 1 ≤ n.length → n.length ≤ 7 → n.all isDigit = true →
      let v := if decValue n < 1 then 1 else if 30000 < decValue n then 30000 else decValue n
      exec (.mass l) s = .next
        { s with ports := ports (.okMass v), ieu := { s.ieu with work := some { d with mass := some v } } } ∧
      replyText (.okMass v) = ascii "OK " ++ decText v) ∧
    ((¬ ∃ n, entryArgs b = [n] ∧ 1 ≤ n.length ∧ n.length ≤ 7 ∧ n.all isDigit = true) →
      exec (.mass l) s = .next { s with ports := ports .errSyntax }) ∧
    (entryArgs b = [] → s.ieu.directFault = true → exec (.clearEntry l) s = .next
      { s with
        ports := ports .ok
        ieu := { s.ieu with
          directFault := false
          state := if s.ieu.state = .infeedFull then readyOrFull s.ieu.infeed false else s.ieu.state } }) ∧
    (entryArgs b = [] → s.ieu.directFault = false →
      exec (.clearEntry l) s = .next { s with ports := ports .errNoFault }) ∧
    replyText .ok = ascii "OK" ∧ replyText .errNoFault = ascii "ERR NOFAULT"

/-- O54. The other entries: PERIOD, FIND, CANCEL and an unknown keyword, with their refusals; the refusals of MASS and
CLOSE by the state of the unit; ERR SYNTAX for each entry whose arguments have not its form; and every entry answered
BUSY in ESTOP and in CONFLICT. That an empty argument counts as one is the model's choice (log 35), and so is the place
of a line being sent among the four that wait (log 36). -/
def Obligations.TerminalEntries : Prop :=
  ∀ (l : PortLine) (s : State), s.role = some .inspect → lineHanded l = true →
    let b := assembleLine 32 l
    let ports := fun r : Reply => { s.ports with lineB := b, waiting := repliedWith r s.ports }
    let answers := fun (i : Instr) (r : Reply) => exec i s = .next { s with ports := ports r }
    let idle := s.ieu.state ≠ .inspecting
    let closing := s.ieu.state = .inspecting ∧ s.ieu.closePending = true
    let open' := s.ieu.state = .inspecting ∧ s.ieu.closePending = false
    let periodText := fun n : Text => n.length = 7 ∧ (n.take 2).all isDigit = true ∧ n.getD 2 0 = 0x2F ∧
      (n.drop 3).all isDigit = true
    let massText := fun n : Text => 1 ≤ n.length ∧ n.length ≤ 7 ∧ n.all isDigit = true
    (∀ i ∈ [Instr.period l, .mass l, .find l, .close l, .cancel l, .clearEntry l, .unknownKeyword l],
      (s.ieu.state = .estop ∨ s.lif.roleConflict = true) → answers i .busy) ∧
    (s.ieu.state ≠ .estop → s.lif.roleConflict = false →
      (answers (.unknownKeyword l) .errSyntax) ∧
      (b.badAt.isSome = true → ∀ i ∈ [Instr.period l, .mass l, .find l, .close l, .cancel l, .clearEntry l],
        answers i .errSyntax) ∧
      (b.badAt = none →
        ((¬ ∃ n, entryArgs b = [n] ∧ periodText n) → answers (.period l) .errSyntax) ∧
        ((¬ ∃ n, entryArgs b = [n] ∧ massText n) → answers (.mass l) .errSyntax) ∧
        ((¬ ∃ name sev, entryArgs b = [name, sev] ∧ (sev = ascii "MINOR" ∨ sev = ascii "CONDEMN")) →
          answers (.find l) .errSyntax) ∧
        (entryArgs b ≠ [] → answers (.close l) .errSyntax ∧ answers (.cancel l) .errSyntax ∧
          answers (.clearEntry l) .errSyntax) ∧
        (∀ n, entryArgs b = [n] → periodText n →
          let month := decValue (n.take 2)
          let year := decValue (n.drop 3)
          let good := 1 ≤ month ∧ month ≤ 12 ∧ 2000 ≤ year ∧ year ≤ 2099
          (good → exec (.period l) s = .next
            { s with
              ports := ports .ok
              ieu := { s.ieu with
                period := some { month := month, year := year }
                state := if s.ieu.state = .noPeriod then readyOrFull s.ieu.infeed s.ieu.directFault
                  else s.ieu.state } }) ∧
          (¬ good → answers (.period l) .errRange)) ∧
        (∀ n, entryArgs b = [n] → massText n →
          (idle → answers (.mass l) .errState) ∧ (closing → answers (.mass l) .busy)) ∧
        (∀ name sev v, entryArgs b = [name, sev] →
          (sev, v) ∈ [(ascii "MINOR", Severity.minor), (ascii "CONDEMN", .condemn)] →
          (idle → answers (.find l) .errState) ∧
          (closing → answers (.find l) .busy) ∧
          (open' → (∀ c : FindingCode, c.name ≠ name) → answers (.find l) .errCode) ∧
          (∀ c d, open' → FindingCode.name c = name → s.ieu.work = some d →
            (6 ≤ d.findings.length → answers (.find l) .full) ∧
            (d.findings.length < 6 → exec (.find l) s = .next
              { s with
                ports := ports .ok
                ieu := { s.ieu with work := some { d with findings := d.findings ++
                  [{ code := c
                     severity := some
                      (if c = .fire ∨ c = .arcBurn ∨ c = .bulge ∨ c = .neckCrack then .condemn else v) }] } } }))) ∧
        (entryArgs b = [] →
          (idle → answers (.close l) .errState) ∧
          (closing → answers (.close l) .busy) ∧
          (idle → answers (.cancel l) .errState) ∧
          (open' → exec (.cancel l) s = .next
            { s with
              ports := ports .ok
              ieu := { s.ieu with work := none, state := readyOrFull s.ieu.infeed s.ieu.directFault } }) ∧
          (closing → s.ports.waiting.length < 3 → exec (.cancel l) s = .next
            { s with
              ports := { s.ports with lineB := b, waiting := s.ports.waiting ++ [.errCancelled, .ok] }
              ieu := { s.ieu with
                work := none, closePending := false, state := readyOrFull s.ieu.infeed s.ieu.directFault } }))))

/-- O55. CLOSE with a mass evaluates the docket in work: period, mass loss, class fields, retest count, lot entry, and
the intent with the first applying cause of the table. A head covers the docket by the table as the last complete round
left it (R34, R66); the dates are R69's. The docket joins its queue at once when it can, else the CLOSE stays pending and
DOCKET_JOIN joins it when it can. Without a mass the CLOSE is refused. In ADDRESS_CONFLICT nothing is evaluated (R81);
that the entry is answered BUSY there is the model's choice (log 37). -/
def Obligations.CloseEvaluatesAndJoins : Prop :=
  (∀ (l : PortLine) (d : Docket) (per : Period) (s : State),
    s.role = some .inspect → s.lif.roleConflict = false → lineHanded l = true → (assembleLine 32 l).badAt = none →
    entryArgs (assembleLine 32 l) = [] → s.ieu.state = .inspecting → s.ieu.closePending = false →
    s.ieu.work = some d → s.ieu.period = some per →
    let answers := fun r : Reply => exec (.close l) s = .next
      { s with ports := { s.ports with lineB := assembleLine 32 l, waiting := repliedWith r s.ports } }
    (d.mass = none → answers .errNoMass) ∧
    (d.mass.isSome = true → s.lif.state = .addressConflict → answers .busy) ∧
    (∀ m, d.mass = some m → s.lif.state ≠ .addressConflict →
      let cls := s.params.classes.getD (d.cls - 1) {}
      let lot := lotMatch s.params.lots d
      let look := lookupSet (historySet s.history d.hash) d.hash s.lif.roundCounter
      let loss := if m < d.tare then (d.tare - m) * 10000 / d.tare else 0
      let decided : Intent × Option Cause :=
        if d.findings.any (fun f => f.severity == some .condemn) then (.scrap, some .findingCondemn)
        else if ∃ p, lot = some p ∧ p.2.condemn = true then (.scrap, some .lotCondemn)
        else if cls.defined = true ∧ cls.massLossLimit < loss then (.scrap, some .massLoss)
        else if s.params.residualLimit < m - d.tare then (.ret, some .notEmpty)
        else if ∃ p, lot = some p ∧ p.2.condemn = false then (.hold, some .lotHold)
        else if ∃ w, look.2 = some w ∧ w.disposition = .scrapped then (.hold, some .historyScrapped)
        else if badDate per d = true then (.hold, some .badDate)
        else if cls.defined = false then (.hold, some .unknownClass)
        else if notDue s.params per cls d = true then (.passThrough, some .notDue)
        else if s.coveredSettled d = false then (.hold, some .noHead)
        else (.test, none)
      let joinable := s.ieu.stage = .idle ∧ (decided.1 = .test → s.ieu.infeed.length < 8) ∧
        (decided.1 ≠ .test → s.ieu.direct.length < 4 ∧ s.ieu.infeedCh ≠ .pulsing .infeedDivert ∧
          s.ieu.infeedCh ≠ .owed .infeedDivert)
      ∃ e t, exec (.close l) s = .next t ∧
        e = { d with
          period := some per
          massLoss := some loss
          ratioLimit := if cls.defined then some cls.ratioLimit else d.ratioLimit
          holdTime := if cls.defined then some cls.holdTime else d.holdTime
          ree := if cls.defined = true ∧ cls.reeApplies = false then none else d.ree
          retest := match look.2 with | some w => decide (1 ≤ w.invalidCount) | none => false
          lotEntry := lot.map (·.1)
          intent := some decided.1
          reason := decided.2 } ∧
        t.history = s.history.set (setIndex d.hash) look.1 ∧
        (joinable → JoinsItsQueue e s t) ∧
        (¬ joinable →
          t.ieu = { s.ieu with work := some e, closePending := true } ∧ t.ports.waiting = s.ports.waiting ∧
          t.txq = s.txq ∧ t.outsideIntake = s.outsideIntake))) ∧
  (∀ (d : Docket) (s : State), s.coveredSettled d = true ↔ ∃ a c h,
    (if s.lif.round.cardFrom = some a then s.lif.round.cardBefore else (s.entry a).card) = some c ∧
    c.role = .test ∧ c.head = some h ∧ d.testPressure ≤ h.rating ∧ d.waterCapacity ≤ h.capacity) ∧
  (∀ (yc yy : Nat), 2000 ≤ yc → yc ≤ 2099 → yy ≤ 99 →
    yc - 90 ≤ expandYear yc yy ∧ expandYear yc yy ≤ yc + 9 ∧ expandYear yc yy % 100 = yy) ∧
  (∀ (p : Params) (per : Period) (c : ClassEntry) (d : Docket),
    let tested := expandYear per.year d.lastYear
    let made := expandYear per.year d.mfgYear
    let now := per.year * 12 + per.month
    let last := tested * 12 + d.lastMonth
    (badDate per d = true ↔ now < last ∨ tested < made ∨ per.year < made) ∧
    (notDue p per c d = true ↔ badDate per d = false ∧ c.defined = true ∧
      now - last < c.intervalYears * 12 - p.earlyWindow)) ∧
  (∀ (d : Docket) (s : State),
    s.role = some .inspect → s.lif.roleConflict = false → s.ieu.work = some d →
    let joinable := s.ieu.closePending = true ∧ s.ieu.state = .inspecting ∧ s.ieu.stage = .idle ∧
      (d.intent = some .test → s.ieu.infeed.length < 8) ∧
      (d.intent ≠ some .test → s.ieu.direct.length < 4 ∧ s.ieu.infeedCh ≠ .pulsing .infeedDivert ∧
        s.ieu.infeedCh ≠ .owed .infeedDivert)
    (joinable → ∃ t, exec .docketJoin s = .next t ∧ JoinsItsQueue d s t ∧ t.history = s.history ∧
        t.ports.lineB = s.ports.lineB) ∧
    (¬ joinable → exec .docketJoin s = .next s))

/-- O56. The numeric value of a serial, whole: its trailing run of digits, of which the last nine count, read in
decimal; none when the last character is no digit; below 10^9 when it exists. And the lot hold match, which compares it,
of the docket's serial, with an entry's range: an entry matches when it is valid and each of its four fields is ANY or
matches, and the first matching one in index order is the match. EVALUATE writes its index, and the cause that its action
records is the one the intent decision finds. -/
def Obligations.SerialNumericValue : Prop :=
  (∀ before run : Text, run.all isDigit = true → (∀ c, before.getLast? = some c → isDigit c = false) →
    serialValue (before ++ run) =
      if run = [] then none
      else some ((run.drop (run.length - 9)).foldl (fun v c => 10 * v + (c.toNat - 0x30)) 0)) ∧
  (∀ t : Text, ∀ v, serialValue t = some v → v ≤ 999999999) ∧
  (∀ (e : LotEntry) (d : Docket), lotEntryMatches e d = true ↔ e.valid = true ∧
    (∀ m, e.mfr = some m → d.mfr = m) ∧ (∀ y, e.mfgYear = some y → d.mfgYear = y) ∧
    (∀ c, e.cls = some c → d.cls = c) ∧
    (∀ lo hi, e.serial = some (lo, hi) → ∃ v, serialValue d.serial = some v ∧ lo ≤ v ∧ v ≤ hi)) ∧
  (∀ (lots : List LotEntry) (d : Docket),
    (lotMatch lots d = none ↔ ∀ e ∈ lots, lotEntryMatches e d = false) ∧
    (∀ i e, lotMatch lots d = some (i, e) ↔ lots[i]? = some e ∧ lotEntryMatches e d = true ∧
      ∀ j < i, ∀ x, lots[j]? = some x → lotEntryMatches x d = false)) ∧
  (∀ (s : State) (per : Period) (mass : Nat) (hit : Option Way) (d : Docket) (c : ClassEntry) (covered : Bool),
    let found := lotMatch s.params.lots d
    let rows := intentRows s.params per c (found.map (·.2)) hit covered mass d
    (evaluatedDocket s per mass hit d).lotEntry = found.map (·.1) ∧
    ((true, .scrap, .lotCondemn) ∈ rows ↔ ∃ i e, found = some (i, e) ∧ e.condemn = true) ∧
    ((true, .hold, .lotHold) ∈ rows ↔ ∃ i e, found = some (i, e) ∧ e.condemn = false))

/-- O57. The serial history. A lookup is a hit exactly when a valid way holds the hash, and it names the other way in the
LRU bit; a way 2^31 rounds old or older is made invalid and misses; a miss changes nothing. A note updates the way of its
hash, or takes the first invalid one, or the one the LRU bit names; its count and the LRU bit follow. Both keep it so
that at most one valid way holds a hash (R80). -/
def Obligations.HistoryLookupAndNotes : Prop :=
  (∀ (x : HistSet) (h : BitVec 16) (now : BitVec 32) (one : Bool),
    x.findWay h = some one →
    ((now - (x.way one).stamp).toNat < 2147483648 → lookupSet x h now = ({ x with lru1 := !one }, some (x.way one))) ∧
    (2147483648 ≤ (now - (x.way one).stamp).toNat →
      (lookupSet x h now).2 = none ∧ ((lookupSet x h now).1.way one).valid = false ∧
      (lookupSet x h now).1.way (!one) = x.way (!one) ∧ (lookupSet x h now).1.lru1 = x.lru1)) ∧
  (∀ (x : HistSet) (h : BitVec 16) (now : BitVec 32), x.findWay h = none → lookupSet x h now = (x, none)) ∧
  (∀ (x : HistSet) (h : BitVec 16),
    (∀ one : Bool, x.findWay h = some one → (x.way one).valid = true ∧ (x.way one).hash = h) ∧
    (x.findWay h = none ↔ ∀ one : Bool, ¬ ((x.way one).valid = true ∧ (x.way one).hash = h))) ∧
  (∀ (x : HistSet) (n : Note) (now : BitVec 32),
    let one := match x.findWay n.hash with
      | some o => o
      | none => if x.way0.valid = false then false else if x.way1.valid = false then true else x.lru1
    let before := if (x.findWay n.hash).isSome then (x.way one).invalidCount else 0
    let y := noteSet x n now
    y.way one = { valid := true, hash := n.hash, disposition := n.disposition, stamp := now
                  invalidCount := if n.disposition = .stamped then 0
                    else if n.disposition = .returned ∧ n.invalid = true then min 2 (before + 1) else before } ∧
    y.way (!one) = x.way (!one) ∧ y.lru1 = !one) ∧
  (∀ (x : HistSet) (h : BitVec 16) (n : Note) (now : BitVec 32), x.OneWayPerHash →
    (lookupSet x h now).1.OneWayPerHash ∧ (noteSet x n now).OneWayPerHash) ∧
  (∀ (hist : List HistSet) (n : Note) (now : BitVec 32),
    (n.disposition = .missing → noteHistory hist n now = hist) ∧
    (n.disposition ≠ .missing → noteHistory hist n now =
      hist.set (n.hash.toNat % 16) (noteSet (hist.getD (n.hash.toNat % 16) {}) n now)))

/-! ### Disposal -/

/-- O58. MARK_READER_LINE: with MARK_READY inactive, or malformed, a line is only received. A good one takes the first
docket of its identity that is not MISSING into the work slot and begins the action of Table 10-3; with none it is a
stray, for the hold lane. -/
def Obligations.MarkingReaderTakes : Prop :=
  ∀ (l : PortLine) (m n : Text) (s : State),
    s.role = some .dispose → s.lif.roleConflict = false → lineHanded l = true →
    let b := assembleLine 64 l
    let run := exec (.markReaderLine l) s
    let ports := { s.ports with lineA := b }
    let found := fun a : Arrival => !a.missing && (a.docket.mfr == m && a.docket.serial == n)
    (markReady s = true ↔ s.dsu.stopCopy = false ∧ s.dsu.halt = none ∧ s.dsu.recBuffer.length < 4 ∧
      s.dsu.work = none) ∧
    (markReady s = false ∨ markIdentity b = none → run = .next { s with ports := ports }) ∧
    (markReady s = true → markIdentity b = some (m, n) →
      (s.dsu.arrival.find? found = none → run = .next
        { s with
          ports := ports
          dsu := { s.dsu with
            lane := 3
            recBuffer := s.dsu.recBuffer ++ [.stray m n]
            work := some { item := .stray m n, phase := .lane } } }) ∧
      (∀ a, s.dsu.arrival.find? found = some a →
        let d := a.docket
        let dsu := { s.dsu with
          arrival := s.dsu.arrival.eraseP found
          work := some { item := .docket d, phase := .marking .clear } }
        let taken := { s with ports := ports, dsu := dsu }
        let struck := { taken with
          dsu := { dsu with
            work := some { item := .docket d, phase := .punching }
            punchPulse := true
            punchTimer := .running } }
        let settles := fun (disp : Disposition) (lane : BitVec 2) =>
          ∃ t, run = .next t ∧ Settled d disp none lane taken t
        (∀ x, d.intent = some .test → d.test = some x →
          (x.verdict = .pass → run = .next taken) ∧
          (x.verdict = .condemn → run = .next struck) ∧
          (x.verdict = .invalid → settles .returned 2)) ∧
        (d.intent = some .scrap → run = .next struck) ∧
        (d.intent = some .ret → settles .returned 2) ∧
        (d.intent = some .hold → settles .held 3) ∧
        (d.intent = some .passThrough → settles .passed 0)))

/-- O59. The marking sequence, exchange by exchange: the word driven, its sequence, and what a good reply does; a good
DONE with one strike more stamps the docket. A reply that fails a check, a wrong state or count, or the strike timer
gives HELD and HALT with the fault. A stop during an exchange leaves the link register with any value (log 7). -/
def Obligations.MarkingLinkSequence : Prop :=
  (∀ (op pos seq : Nat) (ch : Byte), op < 16 → pos < 16 → seq < 256 →
    (linkWord op pos ch seq).toNat = 1048576 * op + 65536 * pos + 256 * ch.toNat + seq) ∧
  ∀ (w : BitVec 24) (stopBit : Bool) (d : Docket) (s : State),
    s.role = some .dispose → s.lif.roleConflict = false → s.dsu.workDocket = some d →
    let text := stampText s.params.plantMark d
    let seq := s.dsu.linkSeq
    let clear := linkWord 1 0 0xFF 0
    let load := fun i => linkWord 2 i (text.getD i 0x20) seq
    let strike := linkWord 3 0 0xFF seq
    let query := linkWord 4 0 0xFF seq
    let after := min 255 (seq + 1)
    let good := fun cmd : BitVec 24 => w ≠ cmd ∧ stopBit = true ∧ 1 ≤ replyState w ∧ replyState w ≤ 4 ∧
      replySeq w = cmd.extractLsb' 0 8
    let at' := fun k : MarkStep => (some { item := .docket d, phase := .marking k } : Option Work)
    let sent := fun (cmd : BitVec 24) (next : Nat) (reg : BitVec 24) =>
      { s.dsu with linkSent := some cmd, linkSeq := next, linkReg := reg }
    let faults := fun (i : Instr) (cmd : BitVec 24) (next : Nat) (c : Cause) =>
      ∃ t, exec i s = .next t ∧ Settled d .held (some c) 3
        { s with dsu := { sent cmd next w with strike := .stopped, halt := some c } } t
    (s.dsu.work = at' .clear → good clear → exec (.linkClear (.word w stopBit)) s = .next
      { s with dsu := { sent clear 1 w with work := at' (.load 0) } }) ∧
    (∀ i, s.dsu.work = at' (.load i) → good (load i) → exec (.linkLoad (.word w stopBit)) s = .next
      { s with dsu := { sent (load i) after w with
          work := at' (if i + 1 < text.length then .load (i + 1) else .query) } }) ∧
    (s.dsu.work = at' .query → good query → replyState w = 2 → replyLoaded w = text.length →
      exec (.linkQuery (.word w stopBit)) s = .next
        { s with dsu := { sent query after w with work := at' .strike, baseCount := replyStrikes w } }) ∧
    (s.dsu.work = at' .query → good query → (replyState w ≠ 2 ∨ replyLoaded w ≠ text.length) →
      faults (.linkQuery (.word w stopBit)) query after .markFault) ∧
    (s.dsu.work = at' .strike → good strike → exec (.linkStrike (.word w stopBit)) s = .next
      { s with dsu := { sent strike after w with work := at' .poll, strike := .running } }) ∧
    (s.dsu.work = at' .poll → good query → replyState w ≠ 4 → exec (.linkQuery (.word w stopBit)) s = .next
      { s with dsu := sent query after w }) ∧
    (s.dsu.work = at' .poll → good query → replyState w = 4 → replyStrikes w = s.dsu.baseCount + 1 →
      ∃ t, exec (.linkQuery (.word w stopBit)) s = .next t ∧ Settled d .stamped none 0
        { s with dsu := { sent query after w with strike := .stopped } } t) ∧
    (s.dsu.work = at' .poll → good query → replyState w = 4 → replyStrikes w ≠ s.dsu.baseCount + 1 →
      faults (.linkQuery (.word w stopBit)) query after .markFault) ∧
    (∀ k i cmd next, s.dsu.work = at' k →
      (k, i, cmd, next) ∈ ([(.clear, .linkClear, clear, 1), (.query, .linkQuery, query, after),
        (.strike, .linkStrike, strike, after), (.poll, .linkQuery, query, after)] :
          List (MarkStep × (LinkReply → Instr) × BitVec 24 × Nat)) ∨
        (∃ j, k = .load j ∧ i = .linkLoad ∧ cmd = load j ∧ next = after) →
      (w = cmd → faults (i (.word w stopBit)) cmd next .markerSilent) ∧
      (w ≠ cmd → ¬ good cmd → faults (i (.word w stopBit)) cmd next .markFault) ∧
      exec (i .silent) s = exec (i (.word cmd true)) s ∧
      (∃ reg, exec (i .stopped) s = .next
        { s with
          dsu := { sent cmd next reg with strike := if k = .strike then .running else s.dsu.strike }
          freeCount := s.freeCount + 1 })) ∧
    (s.dsu.work = at' .poll → s.dsu.strike = .running → ∃ t, exec .strikeTimeout s = .next t ∧
      Settled d .held (some .markFault) 3
        { s with dsu := { s.dsu with strike := .stopped, halt := some .markFault } } t) ∧
    (s.dsu.strike ≠ .running → exec .strikeTimeout s = .next s)

/-- O60. The punch, the lanes, the record output, the calls and the arrival timers. When a line has been sent the oldest
waiter enters the buffer: a card or stray line; the line of the docket in work, which is discarded with its note queued,
and the slot is empty once the cylinder has left; the line of a MISSING docket, which leaves the arrival queue with its
note queued. A stop at DISPOSE and its end, in every phase; and CLEAR at the panel, which in HALT asks the marking head
and leaves HALT on a good reply. The model's own in it: a stopped exchange leaves the register any value (log 7), the
PUNCH pulse may outlast PUNCH_DONE (log 29), LANE stands while a movement is owed (log 32), PUNCH_DONE and REC_CTS are
as they read at use (log 34). -/
def Obligations.PunchLaneAndRecord : Prop :=
  ∀ s : State, s.role = some .dispose → s.lif.roleConflict = false →
    let at' := fun (d : Docket) (p : ActionPhase) => (some { item := .docket d, phase := p } : Option Work)
    let stopped := { s.dsu with stopCopy := true, punchPulse := false, punchTimer := .stopped, strike := .stopped }
    (∀ d, s.dsu.work = at' d .punching →
      (∃ t, exec .punchDone s = .next t ∧
        Settled d .scrapped none 1 { s with dsu := { s.dsu with punchTimer := .stopped } } t) ∧
      (s.dsu.punchTimer = .running → exec .punchTimeout s = .next
        { s with dsu := { s.dsu with
            work := at' d .punchRetry, punchTimer := .stopped, halt := some .punchFault } })) ∧
    (s.dsu.inPhase .punching = false → exec .punchDone s = .next s ∧ exec .punchTimeout s = .next s) ∧
    (exec .punchPulseEnd s = .next { s with dsu := { s.dsu with punchPulse := false } }) ∧
    (∀ d, s.dsu.work = at' d .lane →
      exec .laneReleaseEnd s = .next { s with dsu := { s.dsu with work := at' d .gone } }) ∧
    (∀ i, s.dsu.work = some { item := i, phase := .lane } → (i = .finished ∨ ∃ m n, i = .stray m n) →
      exec .laneReleaseEnd s = .next { s with dsu := { s.dsu with work := none } }) ∧
    (exec (.recordLineSent false) s = .next { s with ports := { s.ports with recCts := false } }) ∧
    (∀ l rest, s.dsu.recBuffer = l :: rest → s.dsu.recWaiters = [] →
      exec (.recordLineSent true) s = .next
        { s with
          ports := { s.ports with recSent := some (recordText l ++ [0x0A]), recCts := true }
          dsu := { s.dsu with recBuffer := rest } }) ∧
    (∀ l rest w more, s.dsu.recBuffer = l :: rest → s.dsu.recWaiters = w :: more →
      let ports := { s.ports with recSent := some (recordText l ++ [0x0A]), recCts := true }
      let moved := { s.dsu with recBuffer := rest ++ [w.line], recWaiters := more }
      ((w.source = .stray ∨ ∃ a, w.source = .card a) →
        exec (.recordLineSent true) s = .next { s with ports := ports, dsu := moved }) ∧
      (∀ d part x, w = { line := .docket d, source := .work } → d.disposal = some part → s.dsu.work = some x →
        exec (.recordLineSent true) s = .next
          { s with
            ports := ports
            dsu := { moved with work := if x.phase = .gone then none else some { x with item := .finished } }
            txq := notedQueue d part s }) ∧
      (∀ i a part, s.dsu.arrival[i]? = some a → ArrivalDistinct s → a.docket.disposal = some part →
        w = { line := .docket a.docket, source := .queued a.docket.mfr a.docket.serial } →
        exec (.recordLineSent true) s = .next
          { s with
            ports := ports
            dsu := { moved with arrival := s.dsu.arrival.eraseIdx i }
            txq := notedQueue a.docket part s })) ∧
    (s.dsu.recBuffer = [] →
      exec (.recordLineSent true) s = .next { s with ports := { s.ports with recCts := true } }) ∧
    (∀ c, s.dsu.call = some c → c.timer = .running → exec .callTimeout s = .next
      { s with
        dsu := { s.dsu with call :=
          if c.returnPhase = false ∧ s.callSending = true then some { c with timer := .expired } else none }
        txq := s.txq.filterMap fun x =>
          if x.kind ≠ .releaseCall then some x
          else if x.contending = true ∧ s.sending = true then some { x with withdraw := true } else none }) ∧
    (∀ i a, s.dsu.arrival[i]? = some a → a.missing = false → s.params.arrivalTime * 20 ≤ a.ticks →
      ArrivalDistinct s →
      let lost := { a.docket with disposal := some { disposition := .missing, cause := some .missing } }
      ∃ t, exec (.arrivalTimeout i) s = .next t ∧
        (s.dsu.recBuffer.length < 4 → t.dsu = { s.dsu with
            arrival := s.dsu.arrival.eraseIdx i, recBuffer := s.dsu.recBuffer ++ [.docket lost] } ∧
          (let note : Note :=
            { hash := a.docket.hash, disposition := .missing, invalid := false, tag := a.docket.tag.getD 0 }
           t.txq = if s.txq.length < 4 then
              insertMsg { kind := .verdictNote, dest := 0xFF, body := noteBody note } s.txq
            else s.txq)) ∧
        (4 ≤ s.dsu.recBuffer.length → t.txq = s.txq ∧ t.dsu = { s.dsu with
            arrival := s.dsu.arrival.set i { a with missing := true, docket := lost }
            recWaiters := s.dsu.recWaiters ++
              [{ line := .docket lost, source := .queued lost.mfr lost.serial }] }) ∧
        t = { s with dsu := t.dsu, txq := t.txq }) ∧
    (∀ i a, s.dsu.arrival[i]? = some a → a.ticks < s.params.arrivalTime * 20 →
      exec (.arrivalTimeout i) s = .next s) ∧
    (s.ilk.stopFlag = false →
      let inputs := { s.inputs with estop := true }
      let ilk := { s.ilk with stopFlag := true }
      let told := { s with inputs := inputs, ilk := ilk, dsu := stopped }
      (s.dsu.work = none → exec .stopReported s = .next told) ∧
      (∀ d k, s.dsu.work = at' d (.marking k) → ∃ t, exec .stopReported s = .next t ∧
        Settled d .held (some .estop) 3 told t) ∧
      (∀ d, s.dsu.work = at' d .punching → exec .stopReported s = .next
        { told with dsu := { stopped with work := at' d .punchOwed } }) ∧
      (∀ w, s.dsu.work = some w → w.phase = .lane → exec .stopReported s = .next
        { told with dsu := { stopped with work := some { w with phase := .laneOwed } } }) ∧
      (∀ w, s.dsu.work = some w → w.phase ∈ [.gone, .punchRetry, .punchOwed, .laneOwed] →
        exec .stopReported s = .next told)) ∧
    (s.ilk.stopFlag = true →
      let inputs := { s.inputs with estop := false }
      let ilk := { s.ilk with stopFlag := false }
      let told := { s with inputs := inputs, ilk := ilk, dsu := { s.dsu with stopCopy := false } }
      (s.dsu.work = none → exec .stopEnded s = .next told) ∧
      (∀ d, s.dsu.work = at' d .punchOwed → exec .stopEnded s = .next
        { told with dsu := { s.dsu with
            stopCopy := false, work := at' d .punching, punchPulse := true, punchTimer := .running } }) ∧
      (∀ w, s.dsu.work = some w → w.phase = .laneOwed → exec .stopEnded s = .next
        { told with dsu := { s.dsu with stopCopy := false, work := some { w with phase := .lane } } }) ∧
      (∀ w, s.dsu.work = some w → w.phase ≠ .punchOwed → w.phase ≠ .laneOwed → exec .stopEnded s = .next told)) ∧
    (∀ r, s.dsu.clearArmed = false → exec (.disposeClear r) s = .next s) ∧
    (s.dsu.clearArmed = true →
      let inputs := { s.inputs with clear := true }
      let cmd := linkWord 1 0 0xFF 0
      let sent := fun reg => { s.dsu with
        clearArmed := false, linkSent := some cmd, linkSeq := 1, linkReg := reg }
      (∀ r, s.dsu.stopCopy = true ∨ s.dsu.halt = none → exec (.disposeClear r) s = .next
        { s with inputs := inputs, dsu := { s.dsu with clearArmed := false } }) ∧
      (s.dsu.stopCopy = false → s.dsu.halt.isSome = true →
        (∀ w, w ≠ cmd → 1 ≤ replyState w → replyState w ≤ 4 → replySeq w = 0 → s.dsu.inPhase .punchRetry = false →
          exec (.disposeClear (.word w true)) s = .next
            { s with inputs := inputs, dsu := { sent w with halt := none } }) ∧
        (∀ w d, w ≠ cmd → 1 ≤ replyState w → replyState w ≤ 4 → replySeq w = 0 → s.dsu.work = at' d .punchRetry →
          exec (.disposeClear (.word w true)) s = .next
            { s with
              inputs := inputs
              dsu := { sent w with
                halt := none, work := at' d .punching, punchPulse := true, punchTimer := .running } }) ∧
        (exec (.disposeClear .silent) s = .next
          { s with inputs := inputs, dsu := { sent cmd with halt := some .markerSilent } }) ∧
        (∀ b, exec (.disposeClear (.word cmd b)) s = .next
          { s with inputs := inputs, dsu := { sent cmd with halt := some .markerSilent } }) ∧
        (∀ w b, w ≠ cmd → b = false ∨ replyState w < 1 ∨ 5 ≤ replyState w ∨ replySeq w ≠ 0 →
          exec (.disposeClear (.word w b)) s = .next
            { s with inputs := inputs, dsu := { sent w with halt := some .markFault } }) ∧
        (∃ reg, exec (.disposeClear .stopped) s = .next
          { s with inputs := inputs, dsu := sent reg, freeCount := s.freeCount + 1 })))

end
end

