-- ==== Sys2Proof/Laws/State.lean ====
section
/-! SUPPORT. One lemma per field per update of the state. -/

namespace Sys2Proof.Machine

@[simp] theorem State.withLoader_loader (s : State) (x : Loader) : (s.withLoader x).loader = x := rfl
@[simp] theorem State.withLoader_params (s : State) (x : Loader) : (s.withLoader x).params = s.params := rfl
@[simp] theorem State.withLoader_lif (s : State) (x : Loader) : (s.withLoader x).lif = s.lif := rfl
@[simp] theorem State.withLoader_txq (s : State) (x : Loader) : (s.withLoader x).txq = s.txq := rfl
@[simp] theorem State.withLoader_pvt (s : State) (x : Loader) : (s.withLoader x).pvt = s.pvt := rfl
@[simp] theorem State.withLoader_inputs (s : State) (x : Loader) : (s.withLoader x).inputs = s.inputs := rfl
@[simp] theorem State.withLoader_ports (s : State) (x : Loader) : (s.withLoader x).ports = s.ports := rfl
@[simp] theorem State.withLoader_tsq (s : State) (x : Loader) : (s.withLoader x).tsq = s.tsq := rfl
@[simp] theorem State.withLoader_msu (s : State) (x : Loader) : (s.withLoader x).msu = s.msu := rfl
@[simp] theorem State.withLoader_adm (s : State) (x : Loader) : (s.withLoader x).adm = s.adm := rfl
@[simp] theorem State.withLoader_ilk (s : State) (x : Loader) : (s.withLoader x).ilk = s.ilk := rfl
@[simp] theorem State.withLoader_ieu (s : State) (x : Loader) : (s.withLoader x).ieu = s.ieu := rfl
@[simp] theorem State.withLoader_history (s : State) (x : Loader) : (s.withLoader x).history = s.history := rfl
@[simp] theorem State.withLoader_dsu (s : State) (x : Loader) : (s.withLoader x).dsu = s.dsu := rfl
@[simp] theorem State.withLoader_lamp (s : State) (x : Loader) : (s.withLoader x).lamp = s.lamp := rfl
@[simp] theorem State.withLoader_freeCount (s : State) (x : Loader) : (s.withLoader x).freeCount = s.freeCount := rfl
@[simp] theorem State.withLoader_pending (s : State) (x : Loader) : (s.withLoader x).pending = s.pending := rfl
@[simp] theorem State.withParams_loader (s : State) (x : Params) : (s.withParams x).loader = s.loader := rfl
@[simp] theorem State.withParams_params (s : State) (x : Params) : (s.withParams x).params = x := rfl
@[simp] theorem State.withParams_lif (s : State) (x : Params) : (s.withParams x).lif = s.lif := rfl
@[simp] theorem State.withParams_txq (s : State) (x : Params) : (s.withParams x).txq = s.txq := rfl
@[simp] theorem State.withParams_pvt (s : State) (x : Params) : (s.withParams x).pvt = s.pvt := rfl
@[simp] theorem State.withParams_inputs (s : State) (x : Params) : (s.withParams x).inputs = s.inputs := rfl
@[simp] theorem State.withParams_ports (s : State) (x : Params) : (s.withParams x).ports = s.ports := rfl
@[simp] theorem State.withParams_tsq (s : State) (x : Params) : (s.withParams x).tsq = s.tsq := rfl
@[simp] theorem State.withParams_msu (s : State) (x : Params) : (s.withParams x).msu = s.msu := rfl
@[simp] theorem State.withParams_adm (s : State) (x : Params) : (s.withParams x).adm = s.adm := rfl
@[simp] theorem State.withParams_ilk (s : State) (x : Params) : (s.withParams x).ilk = s.ilk := rfl
@[simp] theorem State.withParams_ieu (s : State) (x : Params) : (s.withParams x).ieu = s.ieu := rfl
@[simp] theorem State.withParams_history (s : State) (x : Params) : (s.withParams x).history = s.history := rfl
@[simp] theorem State.withParams_dsu (s : State) (x : Params) : (s.withParams x).dsu = s.dsu := rfl
@[simp] theorem State.withParams_lamp (s : State) (x : Params) : (s.withParams x).lamp = s.lamp := rfl
@[simp] theorem State.withParams_freeCount (s : State) (x : Params) : (s.withParams x).freeCount = s.freeCount := rfl
@[simp] theorem State.withParams_pending (s : State) (x : Params) : (s.withParams x).pending = s.pending := rfl
@[simp] theorem State.withLif_loader (s : State) (x : Lif) : (s.withLif x).loader = s.loader := rfl
@[simp] theorem State.withLif_params (s : State) (x : Lif) : (s.withLif x).params = s.params := rfl
@[simp] theorem State.withLif_lif (s : State) (x : Lif) : (s.withLif x).lif = x := rfl
@[simp] theorem State.withLif_txq (s : State) (x : Lif) : (s.withLif x).txq = s.txq := rfl
@[simp] theorem State.withLif_pvt (s : State) (x : Lif) : (s.withLif x).pvt = s.pvt := rfl
@[simp] theorem State.withLif_inputs (s : State) (x : Lif) : (s.withLif x).inputs = s.inputs := rfl
@[simp] theorem State.withLif_ports (s : State) (x : Lif) : (s.withLif x).ports = s.ports := rfl
@[simp] theorem State.withLif_tsq (s : State) (x : Lif) : (s.withLif x).tsq = s.tsq := rfl
@[simp] theorem State.withLif_msu (s : State) (x : Lif) : (s.withLif x).msu = s.msu := rfl
@[simp] theorem State.withLif_adm (s : State) (x : Lif) : (s.withLif x).adm = s.adm := rfl
@[simp] theorem State.withLif_ilk (s : State) (x : Lif) : (s.withLif x).ilk = s.ilk := rfl
@[simp] theorem State.withLif_ieu (s : State) (x : Lif) : (s.withLif x).ieu = s.ieu := rfl
@[simp] theorem State.withLif_history (s : State) (x : Lif) : (s.withLif x).history = s.history := rfl
@[simp] theorem State.withLif_dsu (s : State) (x : Lif) : (s.withLif x).dsu = s.dsu := rfl
@[simp] theorem State.withLif_lamp (s : State) (x : Lif) : (s.withLif x).lamp = s.lamp := rfl
@[simp] theorem State.withLif_freeCount (s : State) (x : Lif) : (s.withLif x).freeCount = s.freeCount := rfl
@[simp] theorem State.withLif_pending (s : State) (x : Lif) : (s.withLif x).pending = s.pending := rfl
@[simp] theorem State.withTxq_loader (s : State) (x : List TxMsg) : (s.withTxq x).loader = s.loader := rfl
@[simp] theorem State.withTxq_params (s : State) (x : List TxMsg) : (s.withTxq x).params = s.params := rfl
@[simp] theorem State.withTxq_lif (s : State) (x : List TxMsg) : (s.withTxq x).lif = s.lif := rfl
@[simp] theorem State.withTxq_txq (s : State) (x : List TxMsg) : (s.withTxq x).txq = x := rfl
@[simp] theorem State.withTxq_pvt (s : State) (x : List TxMsg) : (s.withTxq x).pvt = s.pvt := rfl
@[simp] theorem State.withTxq_inputs (s : State) (x : List TxMsg) : (s.withTxq x).inputs = s.inputs := rfl
@[simp] theorem State.withTxq_ports (s : State) (x : List TxMsg) : (s.withTxq x).ports = s.ports := rfl
@[simp] theorem State.withTxq_tsq (s : State) (x : List TxMsg) : (s.withTxq x).tsq = s.tsq := rfl
@[simp] theorem State.withTxq_msu (s : State) (x : List TxMsg) : (s.withTxq x).msu = s.msu := rfl
@[simp] theorem State.withTxq_adm (s : State) (x : List TxMsg) : (s.withTxq x).adm = s.adm := rfl
@[simp] theorem State.withTxq_ilk (s : State) (x : List TxMsg) : (s.withTxq x).ilk = s.ilk := rfl
@[simp] theorem State.withTxq_ieu (s : State) (x : List TxMsg) : (s.withTxq x).ieu = s.ieu := rfl
@[simp] theorem State.withTxq_history (s : State) (x : List TxMsg) : (s.withTxq x).history = s.history := rfl
@[simp] theorem State.withTxq_dsu (s : State) (x : List TxMsg) : (s.withTxq x).dsu = s.dsu := rfl
@[simp] theorem State.withTxq_lamp (s : State) (x : List TxMsg) : (s.withTxq x).lamp = s.lamp := rfl
@[simp] theorem State.withTxq_freeCount (s : State) (x : List TxMsg) : (s.withTxq x).freeCount = s.freeCount := rfl
@[simp] theorem State.withTxq_pending (s : State) (x : List TxMsg) : (s.withTxq x).pending = s.pending := rfl
@[simp] theorem State.withPvt_loader (s : State) (x : List PvtEntry) : (s.withPvt x).loader = s.loader := rfl
@[simp] theorem State.withPvt_params (s : State) (x : List PvtEntry) : (s.withPvt x).params = s.params := rfl
@[simp] theorem State.withPvt_lif (s : State) (x : List PvtEntry) : (s.withPvt x).lif = s.lif := rfl
@[simp] theorem State.withPvt_txq (s : State) (x : List PvtEntry) : (s.withPvt x).txq = s.txq := rfl
@[simp] theorem State.withPvt_pvt (s : State) (x : List PvtEntry) : (s.withPvt x).pvt = x := rfl
@[simp] theorem State.withPvt_inputs (s : State) (x : List PvtEntry) : (s.withPvt x).inputs = s.inputs := rfl
@[simp] theorem State.withPvt_ports (s : State) (x : List PvtEntry) : (s.withPvt x).ports = s.ports := rfl
@[simp] theorem State.withPvt_tsq (s : State) (x : List PvtEntry) : (s.withPvt x).tsq = s.tsq := rfl
@[simp] theorem State.withPvt_msu (s : State) (x : List PvtEntry) : (s.withPvt x).msu = s.msu := rfl
@[simp] theorem State.withPvt_adm (s : State) (x : List PvtEntry) : (s.withPvt x).adm = s.adm := rfl
@[simp] theorem State.withPvt_ilk (s : State) (x : List PvtEntry) : (s.withPvt x).ilk = s.ilk := rfl
@[simp] theorem State.withPvt_ieu (s : State) (x : List PvtEntry) : (s.withPvt x).ieu = s.ieu := rfl
@[simp] theorem State.withPvt_history (s : State) (x : List PvtEntry) : (s.withPvt x).history = s.history := rfl
@[simp] theorem State.withPvt_dsu (s : State) (x : List PvtEntry) : (s.withPvt x).dsu = s.dsu := rfl
@[simp] theorem State.withPvt_lamp (s : State) (x : List PvtEntry) : (s.withPvt x).lamp = s.lamp := rfl
@[simp] theorem State.withPvt_freeCount (s : State) (x : List PvtEntry) : (s.withPvt x).freeCount = s.freeCount := rfl
@[simp] theorem State.withPvt_pending (s : State) (x : List PvtEntry) : (s.withPvt x).pending = s.pending := rfl
@[simp] theorem State.withInputs_loader (s : State) (x : Pins) : (s.withInputs x).loader = s.loader := rfl
@[simp] theorem State.withInputs_params (s : State) (x : Pins) : (s.withInputs x).params = s.params := rfl
@[simp] theorem State.withInputs_lif (s : State) (x : Pins) : (s.withInputs x).lif = s.lif := rfl
@[simp] theorem State.withInputs_txq (s : State) (x : Pins) : (s.withInputs x).txq = s.txq := rfl
@[simp] theorem State.withInputs_pvt (s : State) (x : Pins) : (s.withInputs x).pvt = s.pvt := rfl
@[simp] theorem State.withInputs_inputs (s : State) (x : Pins) : (s.withInputs x).inputs = x := rfl
@[simp] theorem State.withInputs_ports (s : State) (x : Pins) : (s.withInputs x).ports = s.ports := rfl
@[simp] theorem State.withInputs_tsq (s : State) (x : Pins) : (s.withInputs x).tsq = s.tsq := rfl
@[simp] theorem State.withInputs_msu (s : State) (x : Pins) : (s.withInputs x).msu = s.msu := rfl
@[simp] theorem State.withInputs_adm (s : State) (x : Pins) : (s.withInputs x).adm = s.adm := rfl
@[simp] theorem State.withInputs_ilk (s : State) (x : Pins) : (s.withInputs x).ilk = s.ilk := rfl
@[simp] theorem State.withInputs_ieu (s : State) (x : Pins) : (s.withInputs x).ieu = s.ieu := rfl
@[simp] theorem State.withInputs_history (s : State) (x : Pins) : (s.withInputs x).history = s.history := rfl
@[simp] theorem State.withInputs_dsu (s : State) (x : Pins) : (s.withInputs x).dsu = s.dsu := rfl
@[simp] theorem State.withInputs_lamp (s : State) (x : Pins) : (s.withInputs x).lamp = s.lamp := rfl
@[simp] theorem State.withInputs_freeCount (s : State) (x : Pins) : (s.withInputs x).freeCount = s.freeCount := rfl
@[simp] theorem State.withInputs_pending (s : State) (x : Pins) : (s.withInputs x).pending = s.pending := rfl
@[simp] theorem State.withPorts_loader (s : State) (x : Ports) : (s.withPorts x).loader = s.loader := rfl
@[simp] theorem State.withPorts_params (s : State) (x : Ports) : (s.withPorts x).params = s.params := rfl
@[simp] theorem State.withPorts_lif (s : State) (x : Ports) : (s.withPorts x).lif = s.lif := rfl
@[simp] theorem State.withPorts_txq (s : State) (x : Ports) : (s.withPorts x).txq = s.txq := rfl
@[simp] theorem State.withPorts_pvt (s : State) (x : Ports) : (s.withPorts x).pvt = s.pvt := rfl
@[simp] theorem State.withPorts_inputs (s : State) (x : Ports) : (s.withPorts x).inputs = s.inputs := rfl
@[simp] theorem State.withPorts_ports (s : State) (x : Ports) : (s.withPorts x).ports = x := rfl
@[simp] theorem State.withPorts_tsq (s : State) (x : Ports) : (s.withPorts x).tsq = s.tsq := rfl
@[simp] theorem State.withPorts_msu (s : State) (x : Ports) : (s.withPorts x).msu = s.msu := rfl
@[simp] theorem State.withPorts_adm (s : State) (x : Ports) : (s.withPorts x).adm = s.adm := rfl
@[simp] theorem State.withPorts_ilk (s : State) (x : Ports) : (s.withPorts x).ilk = s.ilk := rfl
@[simp] theorem State.withPorts_ieu (s : State) (x : Ports) : (s.withPorts x).ieu = s.ieu := rfl
@[simp] theorem State.withPorts_history (s : State) (x : Ports) : (s.withPorts x).history = s.history := rfl
@[simp] theorem State.withPorts_dsu (s : State) (x : Ports) : (s.withPorts x).dsu = s.dsu := rfl
@[simp] theorem State.withPorts_lamp (s : State) (x : Ports) : (s.withPorts x).lamp = s.lamp := rfl
@[simp] theorem State.withPorts_freeCount (s : State) (x : Ports) : (s.withPorts x).freeCount = s.freeCount := rfl
@[simp] theorem State.withPorts_pending (s : State) (x : Ports) : (s.withPorts x).pending = s.pending := rfl
@[simp] theorem State.withTsq_loader (s : State) (x : Tsq) : (s.withTsq x).loader = s.loader := rfl
@[simp] theorem State.withTsq_params (s : State) (x : Tsq) : (s.withTsq x).params = s.params := rfl
@[simp] theorem State.withTsq_lif (s : State) (x : Tsq) : (s.withTsq x).lif = s.lif := rfl
@[simp] theorem State.withTsq_txq (s : State) (x : Tsq) : (s.withTsq x).txq = s.txq := rfl
@[simp] theorem State.withTsq_pvt (s : State) (x : Tsq) : (s.withTsq x).pvt = s.pvt := rfl
@[simp] theorem State.withTsq_inputs (s : State) (x : Tsq) : (s.withTsq x).inputs = s.inputs := rfl
@[simp] theorem State.withTsq_ports (s : State) (x : Tsq) : (s.withTsq x).ports = s.ports := rfl
@[simp] theorem State.withTsq_tsq (s : State) (x : Tsq) : (s.withTsq x).tsq = x := rfl
@[simp] theorem State.withTsq_msu (s : State) (x : Tsq) : (s.withTsq x).msu = s.msu := rfl
@[simp] theorem State.withTsq_adm (s : State) (x : Tsq) : (s.withTsq x).adm = s.adm := rfl
@[simp] theorem State.withTsq_ilk (s : State) (x : Tsq) : (s.withTsq x).ilk = s.ilk := rfl
@[simp] theorem State.withTsq_ieu (s : State) (x : Tsq) : (s.withTsq x).ieu = s.ieu := rfl
@[simp] theorem State.withTsq_history (s : State) (x : Tsq) : (s.withTsq x).history = s.history := rfl
@[simp] theorem State.withTsq_dsu (s : State) (x : Tsq) : (s.withTsq x).dsu = s.dsu := rfl
@[simp] theorem State.withTsq_lamp (s : State) (x : Tsq) : (s.withTsq x).lamp = s.lamp := rfl
@[simp] theorem State.withTsq_freeCount (s : State) (x : Tsq) : (s.withTsq x).freeCount = s.freeCount := rfl
@[simp] theorem State.withTsq_pending (s : State) (x : Tsq) : (s.withTsq x).pending = s.pending := rfl
@[simp] theorem State.withMsu_loader (s : State) (x : Msu) : (s.withMsu x).loader = s.loader := rfl
@[simp] theorem State.withMsu_params (s : State) (x : Msu) : (s.withMsu x).params = s.params := rfl
@[simp] theorem State.withMsu_lif (s : State) (x : Msu) : (s.withMsu x).lif = s.lif := rfl
@[simp] theorem State.withMsu_txq (s : State) (x : Msu) : (s.withMsu x).txq = s.txq := rfl
@[simp] theorem State.withMsu_pvt (s : State) (x : Msu) : (s.withMsu x).pvt = s.pvt := rfl
@[simp] theorem State.withMsu_inputs (s : State) (x : Msu) : (s.withMsu x).inputs = s.inputs := rfl
@[simp] theorem State.withMsu_ports (s : State) (x : Msu) : (s.withMsu x).ports = s.ports := rfl
@[simp] theorem State.withMsu_tsq (s : State) (x : Msu) : (s.withMsu x).tsq = s.tsq := rfl
@[simp] theorem State.withMsu_msu (s : State) (x : Msu) : (s.withMsu x).msu = x := rfl
@[simp] theorem State.withMsu_adm (s : State) (x : Msu) : (s.withMsu x).adm = s.adm := rfl
@[simp] theorem State.withMsu_ilk (s : State) (x : Msu) : (s.withMsu x).ilk = s.ilk := rfl
@[simp] theorem State.withMsu_ieu (s : State) (x : Msu) : (s.withMsu x).ieu = s.ieu := rfl
@[simp] theorem State.withMsu_history (s : State) (x : Msu) : (s.withMsu x).history = s.history := rfl
@[simp] theorem State.withMsu_dsu (s : State) (x : Msu) : (s.withMsu x).dsu = s.dsu := rfl
@[simp] theorem State.withMsu_lamp (s : State) (x : Msu) : (s.withMsu x).lamp = s.lamp := rfl
@[simp] theorem State.withMsu_freeCount (s : State) (x : Msu) : (s.withMsu x).freeCount = s.freeCount := rfl
@[simp] theorem State.withMsu_pending (s : State) (x : Msu) : (s.withMsu x).pending = s.pending := rfl
@[simp] theorem State.withAdm_loader (s : State) (x : Adm) : (s.withAdm x).loader = s.loader := rfl
@[simp] theorem State.withAdm_params (s : State) (x : Adm) : (s.withAdm x).params = s.params := rfl
@[simp] theorem State.withAdm_lif (s : State) (x : Adm) : (s.withAdm x).lif = s.lif := rfl
@[simp] theorem State.withAdm_txq (s : State) (x : Adm) : (s.withAdm x).txq = s.txq := rfl
@[simp] theorem State.withAdm_pvt (s : State) (x : Adm) : (s.withAdm x).pvt = s.pvt := rfl
@[simp] theorem State.withAdm_inputs (s : State) (x : Adm) : (s.withAdm x).inputs = s.inputs := rfl
@[simp] theorem State.withAdm_ports (s : State) (x : Adm) : (s.withAdm x).ports = s.ports := rfl
@[simp] theorem State.withAdm_tsq (s : State) (x : Adm) : (s.withAdm x).tsq = s.tsq := rfl
@[simp] theorem State.withAdm_msu (s : State) (x : Adm) : (s.withAdm x).msu = s.msu := rfl
@[simp] theorem State.withAdm_adm (s : State) (x : Adm) : (s.withAdm x).adm = x := rfl
@[simp] theorem State.withAdm_ilk (s : State) (x : Adm) : (s.withAdm x).ilk = s.ilk := rfl
@[simp] theorem State.withAdm_ieu (s : State) (x : Adm) : (s.withAdm x).ieu = s.ieu := rfl
@[simp] theorem State.withAdm_history (s : State) (x : Adm) : (s.withAdm x).history = s.history := rfl
@[simp] theorem State.withAdm_dsu (s : State) (x : Adm) : (s.withAdm x).dsu = s.dsu := rfl
@[simp] theorem State.withAdm_lamp (s : State) (x : Adm) : (s.withAdm x).lamp = s.lamp := rfl
@[simp] theorem State.withAdm_freeCount (s : State) (x : Adm) : (s.withAdm x).freeCount = s.freeCount := rfl
@[simp] theorem State.withAdm_pending (s : State) (x : Adm) : (s.withAdm x).pending = s.pending := rfl
@[simp] theorem State.withIlk_loader (s : State) (x : Ilk) : (s.withIlk x).loader = s.loader := rfl
@[simp] theorem State.withIlk_params (s : State) (x : Ilk) : (s.withIlk x).params = s.params := rfl
@[simp] theorem State.withIlk_lif (s : State) (x : Ilk) : (s.withIlk x).lif = s.lif := rfl
@[simp] theorem State.withIlk_txq (s : State) (x : Ilk) : (s.withIlk x).txq = s.txq := rfl
@[simp] theorem State.withIlk_pvt (s : State) (x : Ilk) : (s.withIlk x).pvt = s.pvt := rfl
@[simp] theorem State.withIlk_inputs (s : State) (x : Ilk) : (s.withIlk x).inputs = s.inputs := rfl
@[simp] theorem State.withIlk_ports (s : State) (x : Ilk) : (s.withIlk x).ports = s.ports := rfl
@[simp] theorem State.withIlk_tsq (s : State) (x : Ilk) : (s.withIlk x).tsq = s.tsq := rfl
@[simp] theorem State.withIlk_msu (s : State) (x : Ilk) : (s.withIlk x).msu = s.msu := rfl
@[simp] theorem State.withIlk_adm (s : State) (x : Ilk) : (s.withIlk x).adm = s.adm := rfl
@[simp] theorem State.withIlk_ilk (s : State) (x : Ilk) : (s.withIlk x).ilk = x := rfl
@[simp] theorem State.withIlk_ieu (s : State) (x : Ilk) : (s.withIlk x).ieu = s.ieu := rfl
@[simp] theorem State.withIlk_history (s : State) (x : Ilk) : (s.withIlk x).history = s.history := rfl
@[simp] theorem State.withIlk_dsu (s : State) (x : Ilk) : (s.withIlk x).dsu = s.dsu := rfl
@[simp] theorem State.withIlk_lamp (s : State) (x : Ilk) : (s.withIlk x).lamp = s.lamp := rfl
@[simp] theorem State.withIlk_freeCount (s : State) (x : Ilk) : (s.withIlk x).freeCount = s.freeCount := rfl
@[simp] theorem State.withIlk_pending (s : State) (x : Ilk) : (s.withIlk x).pending = s.pending := rfl
@[simp] theorem State.withIeu_loader (s : State) (x : Ieu) : (s.withIeu x).loader = s.loader := rfl
@[simp] theorem State.withIeu_params (s : State) (x : Ieu) : (s.withIeu x).params = s.params := rfl
@[simp] theorem State.withIeu_lif (s : State) (x : Ieu) : (s.withIeu x).lif = s.lif := rfl
@[simp] theorem State.withIeu_txq (s : State) (x : Ieu) : (s.withIeu x).txq = s.txq := rfl
@[simp] theorem State.withIeu_pvt (s : State) (x : Ieu) : (s.withIeu x).pvt = s.pvt := rfl
@[simp] theorem State.withIeu_inputs (s : State) (x : Ieu) : (s.withIeu x).inputs = s.inputs := rfl
@[simp] theorem State.withIeu_ports (s : State) (x : Ieu) : (s.withIeu x).ports = s.ports := rfl
@[simp] theorem State.withIeu_tsq (s : State) (x : Ieu) : (s.withIeu x).tsq = s.tsq := rfl
@[simp] theorem State.withIeu_msu (s : State) (x : Ieu) : (s.withIeu x).msu = s.msu := rfl
@[simp] theorem State.withIeu_adm (s : State) (x : Ieu) : (s.withIeu x).adm = s.adm := rfl
@[simp] theorem State.withIeu_ilk (s : State) (x : Ieu) : (s.withIeu x).ilk = s.ilk := rfl
@[simp] theorem State.withIeu_ieu (s : State) (x : Ieu) : (s.withIeu x).ieu = x := rfl
@[simp] theorem State.withIeu_history (s : State) (x : Ieu) : (s.withIeu x).history = s.history := rfl
@[simp] theorem State.withIeu_dsu (s : State) (x : Ieu) : (s.withIeu x).dsu = s.dsu := rfl
@[simp] theorem State.withIeu_lamp (s : State) (x : Ieu) : (s.withIeu x).lamp = s.lamp := rfl
@[simp] theorem State.withIeu_freeCount (s : State) (x : Ieu) : (s.withIeu x).freeCount = s.freeCount := rfl
@[simp] theorem State.withIeu_pending (s : State) (x : Ieu) : (s.withIeu x).pending = s.pending := rfl
@[simp] theorem State.withHistory_loader (s : State) (x : List HistSet) : (s.withHistory x).loader = s.loader := rfl
@[simp] theorem State.withHistory_params (s : State) (x : List HistSet) : (s.withHistory x).params = s.params := rfl
@[simp] theorem State.withHistory_lif (s : State) (x : List HistSet) : (s.withHistory x).lif = s.lif := rfl
@[simp] theorem State.withHistory_txq (s : State) (x : List HistSet) : (s.withHistory x).txq = s.txq := rfl
@[simp] theorem State.withHistory_pvt (s : State) (x : List HistSet) : (s.withHistory x).pvt = s.pvt := rfl
@[simp] theorem State.withHistory_inputs (s : State) (x : List HistSet) : (s.withHistory x).inputs = s.inputs := rfl
@[simp] theorem State.withHistory_ports (s : State) (x : List HistSet) : (s.withHistory x).ports = s.ports := rfl
@[simp] theorem State.withHistory_tsq (s : State) (x : List HistSet) : (s.withHistory x).tsq = s.tsq := rfl
@[simp] theorem State.withHistory_msu (s : State) (x : List HistSet) : (s.withHistory x).msu = s.msu := rfl
@[simp] theorem State.withHistory_adm (s : State) (x : List HistSet) : (s.withHistory x).adm = s.adm := rfl
@[simp] theorem State.withHistory_ilk (s : State) (x : List HistSet) : (s.withHistory x).ilk = s.ilk := rfl
@[simp] theorem State.withHistory_ieu (s : State) (x : List HistSet) : (s.withHistory x).ieu = s.ieu := rfl
@[simp] theorem State.withHistory_history (s : State) (x : List HistSet) : (s.withHistory x).history = x := rfl
@[simp] theorem State.withHistory_dsu (s : State) (x : List HistSet) : (s.withHistory x).dsu = s.dsu := rfl
@[simp] theorem State.withHistory_lamp (s : State) (x : List HistSet) : (s.withHistory x).lamp = s.lamp := rfl
@[simp] theorem State.withHistory_freeCount (s : State) (x : List HistSet) : (s.withHistory x).freeCount = s.freeCount := rfl
@[simp] theorem State.withHistory_pending (s : State) (x : List HistSet) : (s.withHistory x).pending = s.pending := rfl
@[simp] theorem State.withDsu_loader (s : State) (x : Dsu) : (s.withDsu x).loader = s.loader := rfl
@[simp] theorem State.withDsu_params (s : State) (x : Dsu) : (s.withDsu x).params = s.params := rfl
@[simp] theorem State.withDsu_lif (s : State) (x : Dsu) : (s.withDsu x).lif = s.lif := rfl
@[simp] theorem State.withDsu_txq (s : State) (x : Dsu) : (s.withDsu x).txq = s.txq := rfl
@[simp] theorem State.withDsu_pvt (s : State) (x : Dsu) : (s.withDsu x).pvt = s.pvt := rfl
@[simp] theorem State.withDsu_inputs (s : State) (x : Dsu) : (s.withDsu x).inputs = s.inputs := rfl
@[simp] theorem State.withDsu_ports (s : State) (x : Dsu) : (s.withDsu x).ports = s.ports := rfl
@[simp] theorem State.withDsu_tsq (s : State) (x : Dsu) : (s.withDsu x).tsq = s.tsq := rfl
@[simp] theorem State.withDsu_msu (s : State) (x : Dsu) : (s.withDsu x).msu = s.msu := rfl
@[simp] theorem State.withDsu_adm (s : State) (x : Dsu) : (s.withDsu x).adm = s.adm := rfl
@[simp] theorem State.withDsu_ilk (s : State) (x : Dsu) : (s.withDsu x).ilk = s.ilk := rfl
@[simp] theorem State.withDsu_ieu (s : State) (x : Dsu) : (s.withDsu x).ieu = s.ieu := rfl
@[simp] theorem State.withDsu_history (s : State) (x : Dsu) : (s.withDsu x).history = s.history := rfl
@[simp] theorem State.withDsu_dsu (s : State) (x : Dsu) : (s.withDsu x).dsu = x := rfl
@[simp] theorem State.withDsu_lamp (s : State) (x : Dsu) : (s.withDsu x).lamp = s.lamp := rfl
@[simp] theorem State.withDsu_freeCount (s : State) (x : Dsu) : (s.withDsu x).freeCount = s.freeCount := rfl
@[simp] theorem State.withDsu_pending (s : State) (x : Dsu) : (s.withDsu x).pending = s.pending := rfl
@[simp] theorem State.withLamp_loader (s : State) (x : Option LampWord) : (s.withLamp x).loader = s.loader := rfl
@[simp] theorem State.withLamp_params (s : State) (x : Option LampWord) : (s.withLamp x).params = s.params := rfl
@[simp] theorem State.withLamp_lif (s : State) (x : Option LampWord) : (s.withLamp x).lif = s.lif := rfl
@[simp] theorem State.withLamp_txq (s : State) (x : Option LampWord) : (s.withLamp x).txq = s.txq := rfl
@[simp] theorem State.withLamp_pvt (s : State) (x : Option LampWord) : (s.withLamp x).pvt = s.pvt := rfl
@[simp] theorem State.withLamp_inputs (s : State) (x : Option LampWord) : (s.withLamp x).inputs = s.inputs := rfl
@[simp] theorem State.withLamp_ports (s : State) (x : Option LampWord) : (s.withLamp x).ports = s.ports := rfl
@[simp] theorem State.withLamp_tsq (s : State) (x : Option LampWord) : (s.withLamp x).tsq = s.tsq := rfl
@[simp] theorem State.withLamp_msu (s : State) (x : Option LampWord) : (s.withLamp x).msu = s.msu := rfl
@[simp] theorem State.withLamp_adm (s : State) (x : Option LampWord) : (s.withLamp x).adm = s.adm := rfl
@[simp] theorem State.withLamp_ilk (s : State) (x : Option LampWord) : (s.withLamp x).ilk = s.ilk := rfl
@[simp] theorem State.withLamp_ieu (s : State) (x : Option LampWord) : (s.withLamp x).ieu = s.ieu := rfl
@[simp] theorem State.withLamp_history (s : State) (x : Option LampWord) : (s.withLamp x).history = s.history := rfl
@[simp] theorem State.withLamp_dsu (s : State) (x : Option LampWord) : (s.withLamp x).dsu = s.dsu := rfl
@[simp] theorem State.withLamp_lamp (s : State) (x : Option LampWord) : (s.withLamp x).lamp = x := rfl
@[simp] theorem State.withLamp_freeCount (s : State) (x : Option LampWord) : (s.withLamp x).freeCount = s.freeCount := rfl
@[simp] theorem State.withLamp_pending (s : State) (x : Option LampWord) : (s.withLamp x).pending = s.pending := rfl
@[simp] theorem State.withFreeCount_loader (s : State) (x : Nat) : (s.withFreeCount x).loader = s.loader := rfl
@[simp] theorem State.withFreeCount_params (s : State) (x : Nat) : (s.withFreeCount x).params = s.params := rfl
@[simp] theorem State.withFreeCount_lif (s : State) (x : Nat) : (s.withFreeCount x).lif = s.lif := rfl
@[simp] theorem State.withFreeCount_txq (s : State) (x : Nat) : (s.withFreeCount x).txq = s.txq := rfl
@[simp] theorem State.withFreeCount_pvt (s : State) (x : Nat) : (s.withFreeCount x).pvt = s.pvt := rfl
@[simp] theorem State.withFreeCount_inputs (s : State) (x : Nat) : (s.withFreeCount x).inputs = s.inputs := rfl
@[simp] theorem State.withFreeCount_ports (s : State) (x : Nat) : (s.withFreeCount x).ports = s.ports := rfl
@[simp] theorem State.withFreeCount_tsq (s : State) (x : Nat) : (s.withFreeCount x).tsq = s.tsq := rfl
@[simp] theorem State.withFreeCount_msu (s : State) (x : Nat) : (s.withFreeCount x).msu = s.msu := rfl
@[simp] theorem State.withFreeCount_adm (s : State) (x : Nat) : (s.withFreeCount x).adm = s.adm := rfl
@[simp] theorem State.withFreeCount_ilk (s : State) (x : Nat) : (s.withFreeCount x).ilk = s.ilk := rfl
@[simp] theorem State.withFreeCount_ieu (s : State) (x : Nat) : (s.withFreeCount x).ieu = s.ieu := rfl
@[simp] theorem State.withFreeCount_history (s : State) (x : Nat) : (s.withFreeCount x).history = s.history := rfl
@[simp] theorem State.withFreeCount_dsu (s : State) (x : Nat) : (s.withFreeCount x).dsu = s.dsu := rfl
@[simp] theorem State.withFreeCount_lamp (s : State) (x : Nat) : (s.withFreeCount x).lamp = s.lamp := rfl
@[simp] theorem State.withFreeCount_freeCount (s : State) (x : Nat) : (s.withFreeCount x).freeCount = x := rfl
@[simp] theorem State.withFreeCount_pending (s : State) (x : Nat) : (s.withFreeCount x).pending = s.pending := rfl
@[simp] theorem State.withPending_loader (s : State) (x : List Instr) : (s.withPending x).loader = s.loader := rfl
@[simp] theorem State.withPending_params (s : State) (x : List Instr) : (s.withPending x).params = s.params := rfl
@[simp] theorem State.withPending_lif (s : State) (x : List Instr) : (s.withPending x).lif = s.lif := rfl
@[simp] theorem State.withPending_txq (s : State) (x : List Instr) : (s.withPending x).txq = s.txq := rfl
@[simp] theorem State.withPending_pvt (s : State) (x : List Instr) : (s.withPending x).pvt = s.pvt := rfl
@[simp] theorem State.withPending_inputs (s : State) (x : List Instr) : (s.withPending x).inputs = s.inputs := rfl
@[simp] theorem State.withPending_ports (s : State) (x : List Instr) : (s.withPending x).ports = s.ports := rfl
@[simp] theorem State.withPending_tsq (s : State) (x : List Instr) : (s.withPending x).tsq = s.tsq := rfl
@[simp] theorem State.withPending_msu (s : State) (x : List Instr) : (s.withPending x).msu = s.msu := rfl
@[simp] theorem State.withPending_adm (s : State) (x : List Instr) : (s.withPending x).adm = s.adm := rfl
@[simp] theorem State.withPending_ilk (s : State) (x : List Instr) : (s.withPending x).ilk = s.ilk := rfl
@[simp] theorem State.withPending_ieu (s : State) (x : List Instr) : (s.withPending x).ieu = s.ieu := rfl
@[simp] theorem State.withPending_history (s : State) (x : List Instr) : (s.withPending x).history = s.history := rfl
@[simp] theorem State.withPending_dsu (s : State) (x : List Instr) : (s.withPending x).dsu = s.dsu := rfl
@[simp] theorem State.withPending_lamp (s : State) (x : List Instr) : (s.withPending x).lamp = s.lamp := rfl
@[simp] theorem State.withPending_freeCount (s : State) (x : List Instr) : (s.withPending x).freeCount = s.freeCount := rfl
@[simp] theorem State.withPending_pending (s : State) (x : List Instr) : (s.withPending x).pending = x := rfl

end Sys2Proof.Machine
end

