-- ==== Sys2Proof/Laws/Pending.lean ====
section
/-! SUPPORT. No operation touches the queue of commands: one lemma per operation. -/

namespace Sys2Proof.Machine

set_option linter.all false

@[simp] theorem queueMsg_pending (m : TxMsg) (s : State) : (queueMsg m s).pending = s.pending := by
  unfold queueMsg; (try dsimp only); (repeat' split) <;> first | (simp_all; done) | rfl

@[simp] theorem withdrawMsg_pending (k : MsgKind) (s : State) : (withdrawMsg k s).pending = s.pending := by
  unfold withdrawMsg; (try dsimp only); (repeat' split) <;> first | (simp_all; done) | rfl

@[simp] theorem removeContender_pending  (s : State) : (removeContender  s).pending = s.pending := by
  unfold removeContender; (try dsimp only); (repeat' split) <;> first | (simp_all; done) | rfl

@[simp] theorem countUnaccepted_pending  (s : State) : (countUnaccepted  s).pending = s.pending := by
  unfold countUnaccepted; (try dsimp only); (repeat' split) <;> first | (simp_all; done) | rfl

@[simp] theorem setEntry_pending (a : Addr) (e : PvtEntry) (s : State) : (setEntry a e s).pending = s.pending := by
  unfold setEntry; (try dsimp only); (repeat' split) <;> first | (simp_all; done) | rfl

@[simp] theorem queueCard_pending (r : Role) (s : State) : (queueCard r s).pending = s.pending := by
  unfold queueCard; (try dsimp only); (repeat' split) <;> first | (simp_all; done) | rfl

@[simp] theorem refreshShare_pending  (s : State) : (refreshShare  s).pending = s.pending := by
  unfold refreshShare; (try dsimp only); (repeat' split) <;> first | (simp_all; done) | rfl

@[simp] theorem withRound_pending (r : Round) (s : State) : (withRound r s).pending = s.pending := by
  unfold withRound; (try dsimp only); (repeat' split) <;> first | (simp_all; done) | rfl

@[simp] theorem toIdleWait_pending  (s : State) : (toIdleWait  s).pending = s.pending := by
  unfold toIdleWait; (try dsimp only); (repeat' split) <;> first | (simp_all; done) | rfl

@[simp] theorem endRound_pending  (s : State) : (endRound  s).pending = s.pending := by
  unfold endRound; (try dsimp only); (repeat' split) <;> first | (simp_all; done) | rfl

@[simp] theorem onTest_pending (f : TestPart → TestPart) (s : State) : (onTest f s).pending = s.pending := by
  unfold onTest; (try dsimp only); (repeat' split) <;> first | (simp_all; done) | rfl

@[simp] theorem assembleSlot_pending  (s : State) : (assembleSlot  s).pending = s.pending := by
  unfold assembleSlot; (try dsimp only); (repeat' split) <;> first | (simp_all; done) | rfl

@[simp] theorem leaveHolding_pending  (s : State) : (leaveHolding  s).pending = s.pending := by
  unfold leaveHolding; (try dsimp only); (repeat' split) <;> first | (simp_all; done) | rfl

@[simp] theorem abandonPhase_pending  (s : State) : (abandonPhase  s).pending = s.pending := by
  unfold abandonPhase; (try dsimp only); (repeat' split) <;> first | (simp_all; done) | rfl

@[simp] theorem senseInputs_pending (p : Pins) (s : State) : (senseInputs p s).pending = s.pending := by
  unfold senseInputs; (try dsimp only); (repeat' split) <;> first | (simp_all; done) | rfl

@[simp] theorem readChannels_pending (x : Sample) (s : State) : (readChannels x s).pending = s.pending := by
  unfold readChannels; (try dsimp only); (repeat' split) <;> first | (simp_all; done) | rfl

@[simp] theorem openTick_pending (o : TickOrder) (s : State) : (openTick o s).pending = s.pending := by
  unfold openTick; (try dsimp only); (repeat' split) <;> first | (simp_all; done) | rfl

@[simp] theorem enterPhase_pending (h : HeadState) (s : State) : (enterPhase h s).pending = s.pending := by
  unfold enterPhase; (try dsimp only); (repeat' split) <;> first | (simp_all; done) | rfl

@[simp] theorem enterOos_pending (c : Cause) (s : State) : (enterOos c s).pending = s.pending := by
  unfold enterOos; (try dsimp only); (repeat' split) <;> first | (simp_all; done) | rfl

@[simp] theorem enterIdle_pending  (s : State) : (enterIdle  s).pending = s.pending := by
  unfold enterIdle; (try dsimp only); (repeat' split) <;> first | (simp_all; done) | rfl

@[simp] theorem enterDone_pending  (s : State) : (enterDone  s).pending = s.pending := by
  unfold enterDone; (try dsimp only); (repeat' split) <;> first | (simp_all; done) | rfl

@[simp] theorem enterLocked_pending (h : HeadState) (s : State) : (enterLocked h s).pending = s.pending := by
  unfold enterLocked; (try dsimp only); (repeat' split) <;> first | (simp_all; done) | rfl

@[simp] theorem enterDraining_pending  (s : State) : (enterDraining  s).pending = s.pending := by
  unfold enterDraining; (try dsimp only); (repeat' split) <;> first | (simp_all; done) | rfl

@[simp] theorem openGate_pending  (s : State) : (openGate  s).pending = s.pending := by
  unfold openGate; (try dsimp only); (repeat' split) <;> first | (simp_all; done) | rfl

@[simp] theorem enterUnloading_pending  (s : State) : (enterUnloading  s).pending = s.pending := by
  unfold enterUnloading; (try dsimp only); (repeat' split) <;> first | (simp_all; done) | rfl

@[simp] theorem latchOne_pending (c : Cause) (s : State) : (latchOne c s).pending = s.pending := by
  unfold latchOne; (try dsimp only); (repeat' split) <;> first | (simp_all; done) | rfl

@[simp] theorem latchAll_pending (cs : List Cause) (s : State) : (latchAll cs s).pending = s.pending := by
  unfold latchAll
  induction cs generalizing s with
  | nil => rfl
  | cons c cs ih => simp [ih]

@[simp] theorem enterSafe_pending  (s : State) : (enterSafe  s).pending = s.pending := by
  unfold enterSafe; (try dsimp only); (repeat' split) <;> first | (simp_all; done) | rfl

@[simp] theorem reenter_pending (h : HeadState) (s : State) : (reenter h s).pending = s.pending := by
  unfold reenter; (try dsimp only); (repeat' split) <;> first | (simp_all; done) | rfl

@[simp] theorem leaveSafe_pending  (s : State) : (leaveSafe  s).pending = s.pending := by
  unfold leaveSafe; (try dsimp only); (repeat' split) <;> first | (simp_all; done) | rfl

@[simp] theorem chooseNext_pending  (s : State) : (chooseNext  s).pending = s.pending := by
  unfold chooseNext; (try dsimp only); (repeat' split) <;> first | (simp_all; done) | rfl

@[simp] theorem respond_pending  (s : State) : (respond  s).pending = s.pending := by
  unfold respond; (try dsimp only); (repeat' split) <;> first | (simp_all; done) | rfl

@[simp] theorem raise_pending (cs : List Cause) (s : State) : (raise cs s).pending = s.pending := by
  unfold raise; (try dsimp only); (repeat' split) <;> first | (simp_all; done) | rfl

@[simp] theorem completeResponse_pending  (s : State) : (completeResponse  s).pending = s.pending := by
  unfold completeResponse; (try dsimp only); (repeat' split) <;> first | (simp_all; done) | rfl

@[simp] theorem withInput_pending (f : Pins → Pins) (s : State) : (withInput f s).pending = s.pending := by
  unfold withInput; (try dsimp only); (repeat' split) <;> first | (simp_all; done) | rfl

@[simp] theorem atHead_pending (f : State → State) (hf : ∀ x0, (f x0).pending = x0.pending) (s : State) : (atHead f s).pending = s.pending := by
  unfold atHead; (try dsimp only); (repeat' split) <;> first | (simp_all; done) | rfl

@[simp] theorem estopRead_pending (o : TickOrder) (s : State) : (estopRead o s).pending = s.pending := by
  unfold estopRead; (try dsimp only); (repeat' split) <;> first | (simp_all; done) | rfl

@[simp] theorem pswEdge_pending (o : TickOrder) (s : State) : (pswEdge o s).pending = s.pending := by
  unfold pswEdge; (try dsimp only); (repeat' split) <;> first | (simp_all; done) | rfl

@[simp] theorem abortEdge_pending (o : TickOrder) (s : State) : (abortEdge o s).pending = s.pending := by
  unfold abortEdge; (try dsimp only); (repeat' split) <;> first | (simp_all; done) | rfl

@[simp] theorem lidRead_pending (o : TickOrder) (s : State) : (lidRead o s).pending = s.pending := by
  unfold lidRead; (try dsimp only); (repeat' split) <;> first | (simp_all; done) | rfl

@[simp] theorem seatRead_pending (o : TickOrder) (s : State) : (seatRead o s).pending = s.pending := by
  unfold seatRead; (try dsimp only); (repeat' split) <;> first | (simp_all; done) | rfl

@[simp] theorem lidClosedRead_pending (o : TickOrder) (s : State) : (lidClosedRead o s).pending = s.pending := by
  unfold lidClosedRead; (try dsimp only); (repeat' split) <;> first | (simp_all; done) | rfl

@[simp] theorem enterReading_pending (h : HeadState) (s : State) : (enterReading h s).pending = s.pending := by
  unfold enterReading; (try dsimp only); (repeat' split) <;> first | (simp_all; done) | rfl

@[simp] theorem fillRead_pending (o : TickOrder) (s : State) : (fillRead o s).pending = s.pending := by
  unfold fillRead; (try dsimp only); (repeat' split) <;> first | (simp_all; done) | rfl

@[simp] theorem loadExpiry_pending (o : TickOrder) (s : State) : (loadExpiry o s).pending = s.pending := by
  unfold loadExpiry; (try dsimp only); (repeat' split) <;> first | (simp_all; done) | rfl

@[simp] theorem expiryCause_pending (o : TickOrder) (c : Cause) (s : State) :
    (expiryCause o c s).pending = s.pending := by
  unfold expiryCause; (try dsimp only); (repeat' split) <;> first | (simp_all; done) | rfl

@[simp] theorem fillExpiry_pending (o : TickOrder) (s : State) : (fillExpiry o s).pending = s.pending := by
  unfold fillExpiry; (try dsimp only); (repeat' split) <;> first | (simp_all; done) | rfl

@[simp] theorem rampExpiry_pending (o : TickOrder) (s : State) : (rampExpiry o s).pending = s.pending := by
  unfold rampExpiry; (try dsimp only); (repeat' split) <;> first | (simp_all; done) | rfl

@[simp] theorem holdExpiry_pending (o : TickOrder) (s : State) : (holdExpiry o s).pending = s.pending := by
  unfold holdExpiry; (try dsimp only); (repeat' split) <;> first | (simp_all; done) | rfl

@[simp] theorem drainExpiry_pending (o : TickOrder) (s : State) : (drainExpiry o s).pending = s.pending := by
  unfold drainExpiry; (try dsimp only); (repeat' split) <;> first | (simp_all; done) | rfl

@[simp] theorem patienceExpiry_pending (o : TickOrder) (s : State) : (patienceExpiry o s).pending = s.pending := by
  unfold patienceExpiry; (try dsimp only); (repeat' split) <;> first | (simp_all; done) | rfl

@[simp] theorem endUnload_pending  (s : State) : (endUnload  s).pending = s.pending := by
  unfold endUnload; (try dsimp only); (repeat' split) <;> first | (simp_all; done) | rfl

@[simp] theorem unloadRead_pending (o : TickOrder) (s : State) : (unloadRead o s).pending = s.pending := by
  unfold unloadRead; (try dsimp only); (repeat' split) <;> first | (simp_all; done) | rfl

@[simp] theorem unloadExpiry_pending (o : TickOrder) (s : State) : (unloadExpiry o s).pending = s.pending := by
  unfold unloadExpiry; (try dsimp only); (repeat' split) <;> first | (simp_all; done) | rfl

@[simp] theorem clearTaken_pending (o : TickOrder) (s : State) : (clearTaken o s).pending = s.pending := by
  unfold clearTaken; (try dsimp only); (repeat' split) <;> first | (simp_all; done) | rfl

@[simp] theorem advanceTimers_pending  (s : State) : (advanceTimers  s).pending = s.pending := by
  unfold advanceTimers; (try dsimp only); (repeat' split) <;> first | (simp_all; done) | rfl

@[simp] theorem rearm_pending  (s : State) : (rearm  s).pending = s.pending := by
  unfold rearm; (try dsimp only); (repeat' split) <;> first | (simp_all; done) | rfl

@[simp] theorem raisePeak_pending (p : Nat) (s : State) : (raisePeak p s).pending = s.pending := by
  unfold raisePeak; (try dsimp only); (repeat' split) <;> first | (simp_all; done) | rfl

@[simp] theorem enterHolding_pending (p : Nat) (s : State) : (enterHolding p s).pending = s.pending := by
  unfold enterHolding; (try dsimp only); (repeat' split) <;> first | (simp_all; done) | rfl

@[simp] theorem addHold_pending (p : Nat) (s : State) : (addHold p s).pending = s.pending := by
  unfold addHold; (try dsimp only); (repeat' split) <;> first | (simp_all; done) | rfl

@[simp] theorem usePressure_pending (owed : Bool) (s : State) : (usePressure owed s).pending = s.pending := by
  unfold usePressure; (try dsimp only); (repeat' split) <;> first | (simp_all; done) | rfl

@[simp] theorem withWindow_pending (w : Window) (s : State) : (withWindow w s).pending = s.pending := by
  unfold withWindow; (try dsimp only); (repeat' split) <;> first | (simp_all; done) | rfl

@[simp] theorem zeroReading_pending (sum t : Nat) (s : State) : (zeroReading sum t s).pending = s.pending := by
  unfold zeroReading; (try dsimp only); (repeat' split) <;> first | (simp_all; done) | rfl

@[simp] theorem totalReading_pending (sum t : Nat) (s : State) : (totalReading sum t s).pending = s.pending := by
  unfold totalReading; (try dsimp only); (repeat' split) <;> first | (simp_all; done) | rfl

@[simp] theorem permanentReading_pending (sum t : Nat) (s : State) : (permanentReading sum t s).pending = s.pending := by
  unfold permanentReading; (try dsimp only); (repeat' split) <;> first | (simp_all; done) | rfl

@[simp] theorem takeReading_pending (h : HeadState) (sum t : Nat) (s : State) : (takeReading h sum t s).pending = s.pending := by
  unfold takeReading; (try dsimp only); (repeat' split) <;> first | (simp_all; done) | rfl

@[simp] theorem judgeWindow_pending (h : HeadState) (w : Window) (s : State) : (judgeWindow h w s).pending = s.pending := by
  unfold judgeWindow; (try dsimp only); (repeat' split) <;> first | (simp_all; done) | rfl

@[simp] theorem useWindow_pending (h : HeadState) (x : Sample) (s : State) : (useWindow h x s).pending = s.pending := by
  unfold useWindow; (try dsimp only); (repeat' split) <;> first | (simp_all; done) | rfl

@[simp] theorem windowStage_pending (phase : Option HeadState) (x : Sample) (s : State) : (windowStage phase x s).pending = s.pending := by
  unfold windowStage; (try dsimp only); (repeat' split) <;> first | (simp_all; done) | rfl

@[simp] theorem tickRead_pending (pins : Pins) (x : Sample) (s : State) : (tickRead pins x s).pending = s.pending := by
  simp [tickRead]
@[simp] theorem headSample_pending (pins : Pins) (x : Sample) (s : State) : (headSample pins x s).pending = s.pending := by
  unfold headSample; (try dsimp only); (repeat' split) <;> first | (simp_all; done) | rfl

@[simp] theorem disposeTick_pending (pins : Pins) (s : State) : (disposeTick pins s).pending = s.pending := by
  unfold disposeTick; (try dsimp only); (repeat' split) <;> first | (simp_all; done) | rfl

@[simp] theorem takeNote_pending (n : Note) (s : State) : (takeNote n s).pending = s.pending := by
  unfold takeNote; (try dsimp only); (repeat' split) <;> first | (simp_all; done) | rfl

@[simp] theorem intakeStop_pending  (s : State) : (intakeStop  s).pending = s.pending := by
  unfold intakeStop; (try dsimp only); (repeat' split) <;> first | (simp_all; done) | rfl

@[simp] theorem intakeResume_pending  (s : State) : (intakeResume  s).pending = s.pending := by
  unfold intakeResume; (try dsimp only); (repeat' split) <;> first | (simp_all; done) | rfl

@[simp] theorem reply_pending (r : Reply) (s : State) : (reply r s).pending = s.pending := by
  unfold reply; (try dsimp only); (repeat' split) <;> first | (simp_all; done) | rfl

@[simp] theorem terminalLine_pending (l : PortLine) (f : LineBuffer → State → State) (hf : ∀ x0 x1, (f x0 x1).pending = x1.pending) (s : State) : (terminalLine l f s).pending = s.pending := by
  unfold terminalLine; (try dsimp only); (repeat' split) <;> first | (simp_all; done) | rfl

@[simp] theorem entryChecks_pending (form : List Text → Bool) (act : List Text → State → State) (b : LineBuffer) (hact : ∀ x0 x1, (act x0 x1).pending = x1.pending) (s : State) : (entryChecks form act b s).pending = s.pending := by
  unfold entryChecks; (try dsimp only); (repeat' split) <;> first | (simp_all; done) | rfl

@[simp] theorem takePeriod_pending (args : List Text) (s : State) : (takePeriod args s).pending = s.pending := by
  unfold takePeriod; (try dsimp only); (repeat' split) <;> first | (simp_all; done) | rfl

@[simp] theorem takeMass_pending (args : List Text) (s : State) : (takeMass args s).pending = s.pending := by
  unfold takeMass; (try dsimp only); (repeat' split) <;> first | (simp_all; done) | rfl

@[simp] theorem takeFind_pending (args : List Text) (s : State) : (takeFind args s).pending = s.pending := by
  unfold takeFind; (try dsimp only); (repeat' split) <;> first | (simp_all; done) | rfl

@[simp] theorem takeCancel_pending (args : List Text) (s : State) : (takeCancel args s).pending = s.pending := by
  unfold takeCancel; (try dsimp only); (repeat' split) <;> first | (simp_all; done) | rfl

@[simp] theorem takeClear_pending (args : List Text) (s : State) : (takeClear args s).pending = s.pending := by
  unfold takeClear; (try dsimp only); (repeat' split) <;> first | (simp_all; done) | rfl

@[simp] theorem takeReader_pending (b : LineBuffer) (s : State) : (takeReader b s).pending = s.pending := by
  unfold takeReader; (try dsimp only); (repeat' split) <;> first | (simp_all; done) | rfl

@[simp] theorem readerRead_pending (l : PortLine) (s : State) : (readerRead l s).pending = s.pending := by
  unfold readerRead; (try dsimp only); (repeat' split) <;> first | (simp_all; done) | rfl

@[simp] theorem evaluate_pending (per : Period) (mass : Nat) (d : Docket) (s : State) : (evaluate per mass d s).pending = s.pending := by
  unfold evaluate; (try dsimp only); (repeat' split) <;> first | (simp_all; done) | rfl

@[simp] theorem joinDocket_pending (d : Docket) (s : State) : (joinDocket d s).pending = s.pending := by
  unfold joinDocket; (try dsimp only); (repeat' split) <;> first | (simp_all; done) | rfl

@[simp] theorem tryJoin_pending  (s : State) : (tryJoin  s).pending = s.pending := by
  unfold tryJoin; (try dsimp only); (repeat' split) <;> first | (simp_all; done) | rfl

@[simp] theorem takeClose_pending (args : List Text) (s : State) : (takeClose args s).pending = s.pending := by
  unfold takeClose; (try dsimp only); (repeat' split) <;> first | (simp_all; done) | rfl

@[simp] theorem offerAccepted_pending (a : Addr) (s : State) : (offerAccepted a s).pending = s.pending := by
  unfold offerAccepted; (try dsimp only); (repeat' split) <;> first | (simp_all; done) | rfl

@[simp] theorem directAccepted_pending  (s : State) : (directAccepted  s).pending = s.pending := by
  unfold directAccepted; (try dsimp only); (repeat' split) <;> first | (simp_all; done) | rfl

@[simp] theorem directDropped_pending  (s : State) : (directDropped  s).pending = s.pending := by
  unfold directDropped; (try dsimp only); (repeat' split) <;> first | (simp_all; done) | rfl

@[simp] theorem noHeadMove_pending (d : Docket) (s : State) : (noHeadMove d s).pending = s.pending := by
  unfold noHeadMove; (try dsimp only); (repeat' split) <;> first | (simp_all; done) | rfl

@[simp] theorem offerDecision_pending  (s : State) : (offerDecision  s).pending = s.pending := by
  unfold offerDecision; (try dsimp only); (repeat' split) <;> first | (simp_all; done) | rfl

@[simp] theorem directDecision_pending  (s : State) : (directDecision  s).pending = s.pending := by
  unfold directDecision; (try dsimp only); (repeat' split) <;> first | (simp_all; done) | rfl

@[simp] theorem intakeConflict_pending  (s : State) : (intakeConflict  s).pending = s.pending := by
  unfold intakeConflict; (try dsimp only); (repeat' split) <;> first | (simp_all; done) | rfl

@[simp] theorem queueNote_pending (d : Docket) (s : State) : (queueNote d s).pending = s.pending := by
  unfold queueNote; (try dsimp only); (repeat' split) <;> first | (simp_all; done) | rfl

@[simp] theorem finishLine_pending (w : Waiter) (s : State) : (finishLine w s).pending = s.pending := by
  unfold finishLine; (try dsimp only); (repeat' split) <;> first | (simp_all; done) | rfl

@[simp] theorem enterBuffer_pending (w : Waiter) (s : State) : (enterBuffer w s).pending = s.pending := by
  unfold enterBuffer; (try dsimp only); (repeat' split) <;> first | (simp_all; done) | rfl

@[simp] theorem produceLine_pending (w : Waiter) (s : State) : (produceLine w s).pending = s.pending := by
  unfold produceLine; (try dsimp only); (repeat' split) <;> first | (simp_all; done) | rfl

@[simp] theorem lineSent_pending  (s : State) : (lineSent  s).pending = s.pending := by
  unfold lineSent; (try dsimp only); (repeat' split) <;> first | (simp_all; done) | rfl

@[simp] theorem sendRecord_pending (cts : Bool) (s : State) : (sendRecord cts s).pending = s.pending := by
  unfold sendRecord; (try dsimp only); (repeat' split) <;> first | (simp_all; done) | rfl

@[simp] theorem setPhase_pending (p : ActionPhase) (s : State) : (setPhase p s).pending = s.pending := by
  unfold setPhase; (try dsimp only); (repeat' split) <;> first | (simp_all; done) | rfl

@[simp] theorem enterLane_pending (lane : BitVec 2) (s : State) : (enterLane lane s).pending = s.pending := by
  unfold enterLane; (try dsimp only); (repeat' split) <;> first | (simp_all; done) | rfl

@[simp] theorem settle_pending (disp : Disposition) (cause : Option Cause) (lane : BitVec 2) (s : State) : (settle disp cause lane s).pending = s.pending := by
  unfold settle; (try dsimp only); (repeat' split) <;> first | (simp_all; done) | rfl

@[simp] theorem laneEnd_pending  (s : State) : (laneEnd  s).pending = s.pending := by
  unfold laneEnd; (try dsimp only); (repeat' split) <;> first | (simp_all; done) | rfl

@[simp] theorem startPunch_pending  (s : State) : (startPunch  s).pending = s.pending := by
  unfold startPunch; (try dsimp only); (repeat' split) <;> first | (simp_all; done) | rfl

@[simp] theorem punchDone_pending  (s : State) : (punchDone  s).pending = s.pending := by
  unfold punchDone; (try dsimp only); (repeat' split) <;> first | (simp_all; done) | rfl

@[simp] theorem punchExpiry_pending  (s : State) : (punchExpiry  s).pending = s.pending := by
  unfold punchExpiry; (try dsimp only); (repeat' split) <;> first | (simp_all; done) | rfl

@[simp] theorem exchange_pending (cmd : BitVec 24) (nextSeq : Nat) (r : LinkReply) (onReply : Except Cause (BitVec 24) → State → State) (honReply : ∀ x0 x1, (onReply x0 x1).pending = x1.pending) (s : State) : (exchange cmd nextSeq r onReply s).pending = s.pending := by
  unfold exchange; (try dsimp only); (repeat' split) <;> first | (simp_all; done) | rfl

@[simp] theorem markFault_pending (c : Cause) (s : State) : (markFault c s).pending = s.pending := by
  unfold markFault; (try dsimp only); (repeat' split) <;> first | (simp_all; done) | rfl

@[simp] theorem onLink_pending (good : BitVec 24 → State → State) (r : Except Cause (BitVec 24)) (hgood : ∀ x0 x1, (good x0 x1).pending = x1.pending) (s : State) : (onLink good r s).pending = s.pending := by
  unfold onLink; (try dsimp only); (repeat' split) <;> first | (simp_all; done) | rfl

@[simp] theorem linkClear_pending (r : LinkReply) (s : State) : (linkClear r s).pending = s.pending := by
  unfold linkClear; (try dsimp only); (repeat' split) <;> first | (simp_all; done) | rfl

@[simp] theorem linkLoad_pending (r : LinkReply) (s : State) : (linkLoad r s).pending = s.pending := by
  unfold linkLoad; (try dsimp only); (repeat' split) <;> first | (simp_all; done) | rfl

@[simp] theorem queryReply_pending (w : BitVec 24) (s : State) : (queryReply w s).pending = s.pending := by
  unfold queryReply; (try dsimp only); (repeat' split) <;> first | (simp_all; done) | rfl

@[simp] theorem pollReply_pending (w : BitVec 24) (s : State) : (pollReply w s).pending = s.pending := by
  unfold pollReply; (try dsimp only); (repeat' split) <;> first | (simp_all; done) | rfl

@[simp] theorem linkQuery_pending (r : LinkReply) (s : State) : (linkQuery r s).pending = s.pending := by
  unfold linkQuery; (try dsimp only); (repeat' split) <;> first | (simp_all; done) | rfl

@[simp] theorem linkStrike_pending (r : LinkReply) (s : State) : (linkStrike r s).pending = s.pending := by
  unfold linkStrike; (try dsimp only); (repeat' split) <;> first | (simp_all; done) | rfl

@[simp] theorem strikeExpiry_pending  (s : State) : (strikeExpiry  s).pending = s.pending := by
  unfold strikeExpiry; (try dsimp only); (repeat' split) <;> first | (simp_all; done) | rfl

@[simp] theorem putWork_pending (i : WorkItem) (p : ActionPhase) (s : State) : (putWork i p s).pending = s.pending := by
  unfold putWork; (try dsimp only); (repeat' split) <;> first | (simp_all; done) | rfl

@[simp] theorem beginAction_pending (d : Docket) (s : State) : (beginAction d s).pending = s.pending := by
  unfold beginAction; (try dsimp only); (repeat' split) <;> first | (simp_all; done) | rfl

@[simp] theorem identityRead_pending (m n : Text) (s : State) : (identityRead m n s).pending = s.pending := by
  unfold identityRead; (try dsimp only); (repeat' split) <;> first | (simp_all; done) | rfl

@[simp] theorem markRead_pending (l : PortLine) (s : State) : (markRead l s).pending = s.pending := by
  unfold markRead; (try dsimp only); (repeat' split) <;> first | (simp_all; done) | rfl

@[simp] theorem addArrival_pending (d : Docket) (s : State) : (addArrival d s).pending = s.pending := by
  unfold addArrival; (try dsimp only); (repeat' split) <;> first | (simp_all; done) | rfl

@[simp] theorem finishMissing_pending (i : Nat) (s : State) : (finishMissing i s).pending = s.pending := by
  unfold finishMissing; (try dsimp only); (repeat' split) <;> first | (simp_all; done) | rfl

@[simp] theorem returnAccepted_pending (d : Docket) (s : State) : (returnAccepted d s).pending = s.pending := by
  unfold returnAccepted; (try dsimp only); (repeat' split) <;> first | (simp_all; done) | rfl

@[simp] theorem callDecision_pending  (s : State) : (callDecision  s).pending = s.pending := by
  unfold callDecision; (try dsimp only); (repeat' split) <;> first | (simp_all; done) | rfl

@[simp] theorem withCall_pending (f : Call → Option Call) (s : State) : (withCall f s).pending = s.pending := by
  unfold withCall; (try dsimp only); (repeat' split) <;> first | (simp_all; done) | rfl

@[simp] theorem callAccepted_pending  (s : State) : (callAccepted  s).pending = s.pending := by
  unfold callAccepted; (try dsimp only); (repeat' split) <;> first | (simp_all; done) | rfl

@[simp] theorem callRefused_pending  (s : State) : (callRefused  s).pending = s.pending := by
  unfold callRefused; (try dsimp only); (repeat' split) <;> first | (simp_all; done) | rfl

@[simp] theorem callUnaccepted_pending  (s : State) : (callUnaccepted  s).pending = s.pending := by
  unfold callUnaccepted; (try dsimp only); (repeat' split) <;> first | (simp_all; done) | rfl

@[simp] theorem callExpiry_pending  (s : State) : (callExpiry  s).pending = s.pending := by
  unfold callExpiry; (try dsimp only); (repeat' split) <;> first | (simp_all; done) | rfl

@[simp] theorem disposeStop_pending  (s : State) : (disposeStop  s).pending = s.pending := by
  unfold disposeStop; (try dsimp only); (repeat' split) <;> first | (simp_all; done) | rfl

@[simp] theorem disposeResume_pending  (s : State) : (disposeResume  s).pending = s.pending := by
  unfold disposeResume; (try dsimp only); (repeat' split) <;> first | (simp_all; done) | rfl

@[simp] theorem panelReply_pending (r : Except Cause (BitVec 24)) (s : State) : (panelReply r s).pending = s.pending := by
  unfold panelReply; (try dsimp only); (repeat' split) <;> first | (simp_all; done) | rfl

@[simp] theorem panelClear_pending (r : LinkReply) (s : State) : (panelClear r s).pending = s.pending := by
  unfold panelClear; (try dsimp only); (repeat' split) <;> first | (simp_all; done) | rfl

@[simp] theorem disposeConflict_pending  (s : State) : (disposeConflict  s).pending = s.pending := by
  unfold disposeConflict; (try dsimp only); (repeat' split) <;> first | (simp_all; done) | rfl

@[simp] theorem leaveWindow_pending  (s : State) : (leaveWindow  s).pending = s.pending := by
  unfold leaveWindow; (try dsimp only); (repeat' split) <;> first | (simp_all; done) | rfl

@[simp] theorem contend_pending (read : Key) (s : State) : (contend read s).pending = s.pending := by
  unfold contend; (try dsimp only); (repeat' split) <;> first | (simp_all; done) | rfl

@[simp] theorem unacceptedEffect_pending (k : MsgKind) (s : State) : (unacceptedEffect k s).pending = s.pending := by
  unfold unacceptedEffect; (try dsimp only); (repeat' split) <;> first | (simp_all; done) | rfl

@[simp] theorem unaccepted_pending (m : TxMsg) (s : State) : (unaccepted m s).pending = s.pending := by
  unfold unaccepted; (try dsimp only); (repeat' split) <;> first | (simp_all; done) | rfl

@[simp] theorem roundStage_pending (g : RoundStage) (s : State) : (roundStage g s).pending = s.pending := by
  unfold roundStage; (try dsimp only); (repeat' split) <;> first | (simp_all; done) | rfl

@[simp] theorem sendFrame_pending (read : List Byte) (m : TxMsg) (key : Key) (s : State) : (sendFrame read m key s).pending = s.pending := by
  unfold sendFrame; (try dsimp only); (repeat' split) <;> first | (simp_all; done) | rfl

@[simp] theorem returnTaken_pending  (s : State) : (returnTaken  s).pending = s.pending := by
  unfold returnTaken; (try dsimp only); (repeat' split) <;> first | (simp_all; done) | rfl

@[simp] theorem acceptedEffect_pending (k : MsgKind) (a : Addr) (s : State) : (acceptedEffect k a s).pending = s.pending := by
  unfold acceptedEffect; (try dsimp only); (repeat' split) <;> first | (simp_all; done) | rfl

@[simp] theorem readAccept_pending (read : Byte) (m : TxMsg) (s : State) : (readAccept read m s).pending = s.pending := by
  unfold readAccept; (try dsimp only); (repeat' split) <;> first | (simp_all; done) | rfl

@[simp] theorem returnDropped_pending  (s : State) : (returnDropped  s).pending = s.pending := by
  unfold returnDropped; (try dsimp only); (repeat' split) <;> first | (simp_all; done) | rfl

@[simp] theorem droppedEffect_pending (k : MsgKind) (s : State) : (droppedEffect k s).pending = s.pending := by
  unfold droppedEffect; (try dsimp only); (repeat' split) <;> first | (simp_all; done) | rfl

@[simp] theorem dropMessage_pending  (s : State) : (dropMessage  s).pending = s.pending := by
  unfold dropMessage; (try dsimp only); (repeat' split) <;> first | (simp_all; done) | rfl

@[simp] theorem keyRead_pending (f : Frame) (s : State) : (keyRead f s).pending = s.pending := by
  unfold keyRead; (try dsimp only); (repeat' split) <;> first | (simp_all; done) | rfl

@[simp] theorem buffered_pending (f : Frame) (s : State) : (buffered f s).pending = s.pending := by
  unfold buffered; (try dsimp only); (repeat' split) <;> first | (simp_all; done) | rfl

@[simp] theorem receive_pending (k : MsgKind) (f : Frame) (take : State → State) (htake : ∀ x0, (take x0).pending = x0.pending) (s : State) : (receive k f take s).pending = s.pending := by
  unfold receive; (try dsimp only); (repeat' split) <;> first | (simp_all; done) | rfl

@[simp] theorem writeAccept_pending (read : Byte) (take : State → State) (htake : ∀ x0, (take x0).pending = x0.pending) (s : State) : (writeAccept read take s).pending = s.pending := by
  unfold writeAccept; (try dsimp only); (repeat' split) <;> first | (simp_all; done) | rfl

@[simp] theorem takeOffer_pending (d : Docket) (s : State) : (takeOffer d s).pending = s.pending := by
  unfold takeOffer; (try dsimp only); (repeat' split) <;> first | (simp_all; done) | rfl

@[simp] theorem offerFor_pending (f : Frame) (read : Byte) (s : State) : (offerFor f read s).pending = s.pending := by
  unfold offerFor; (try dsimp only); (repeat' split) <;> first | (simp_all; done) | rfl

@[simp] theorem takeCall_pending (a : Addr) (s : State) : (takeCall a s).pending = s.pending := by
  unfold takeCall; (try dsimp only); (repeat' split) <;> first | (simp_all; done) | rfl

@[simp] theorem callFor_pending (f : Frame) (read : Byte) (s : State) : (callFor f read s).pending = s.pending := by
  unfold callFor; (try dsimp only); (repeat' split) <;> first | (simp_all; done) | rfl

@[simp] theorem directFor_pending (f : Frame) (read : Byte) (s : State) : (directFor f read s).pending = s.pending := by
  unfold directFor; (try dsimp only); (repeat' split) <;> first | (simp_all; done) | rfl

@[simp] theorem returnFor_pending (f : Frame) (read : Byte) (s : State) : (returnFor f read s).pending = s.pending := by
  unfold returnFor; (try dsimp only); (repeat' split) <;> first | (simp_all; done) | rfl

@[simp] theorem cardFor_pending (f : Frame) (s : State) : (cardFor f s).pending = s.pending := by
  unfold cardFor; (try dsimp only); (repeat' split) <;> first | (simp_all; done) | rfl

@[simp] theorem noteFor_pending (f : Frame) (s : State) : (noteFor f s).pending = s.pending := by
  unfold noteFor; (try dsimp only); (repeat' split) <;> first | (simp_all; done) | rfl

@[simp] theorem readIdle_pending (cells : List LineRun) (s : State) : (readIdle cells s).pending = s.pending := by
  unfold readIdle; (try dsimp only); (repeat' split) <;> first | (simp_all; done) | rfl

@[simp] theorem endIncomplete_pending  (s : State) : (endIncomplete  s).pending = s.pending := by
  unfold endIncomplete; (try dsimp only); (repeat' split) <;> first | (simp_all; done) | rfl

@[simp] theorem enterRound_pending (read : BitVec 4) (s : State) : (enterRound read s).pending = s.pending := by
  unfold enterRound; (try dsimp only); (repeat' split) <;> first | (simp_all; done) | rfl

@[simp] theorem addressConflict_pending  (s : State) : (addressConflict  s).pending = s.pending := by
  unfold addressConflict; (try dsimp only); (repeat' split) <;> first | (simp_all; done) | rfl

@[simp] theorem writePost_pending (w read : PostWord) (s : State) : (writePost w read s).pending = s.pending := by
  unfold writePost; (try dsimp only); (repeat' split) <;> first | (simp_all; done) | rfl

@[simp] theorem silenceExpiry_pending (o : TickOrder) (s : State) : (silenceExpiry o s).pending = s.pending := by
  unfold silenceExpiry; (try dsimp only); (repeat' split) <;> first | (simp_all; done) | rfl

@[simp] theorem updateTable_pending (posts : List PostWord) (w : PostWord) (s : State) : (updateTable posts w s).pending = s.pending := by
  unfold updateTable; (try dsimp only); (repeat' split) <;> first | (simp_all; done) | rfl

@[simp] theorem cardStep_pending (r : Role) (old : List PvtEntry) (s : State) : (cardStep r old s).pending = s.pending := by
  unfold cardStep; (try dsimp only); (repeat' split) <;> first | (simp_all; done) | rfl

@[simp] theorem roleConflict_pending (r : Role) (s : State) : (roleConflict r s).pending = s.pending := by
  unfold roleConflict; (try dsimp only); (repeat' split) <;> first | (simp_all; done) | rfl

@[simp] theorem conflictStep_pending (r : Role) (s : State) : (conflictStep r s).pending = s.pending := by
  unfold conflictStep; (try dsimp only); (repeat' split) <;> first | (simp_all; done) | rfl

@[simp] theorem lineStep_pending (cell263 : Bool) (s : State) : (lineStep cell263 s).pending = s.pending := by
  unfold lineStep; (try dsimp only); (repeat' split) <;> first | (simp_all; done) | rfl

@[simp] theorem waitStep_pending  (s : State) : (waitStep  s).pending = s.pending := by
  unfold waitStep; (try dsimp only); (repeat' split) <;> first | (simp_all; done) | rfl

@[simp] theorem ageStep_pending  (s : State) : (ageStep  s).pending = s.pending := by
  unfold ageStep; (try dsimp only); (repeat' split) <;> first | (simp_all; done) | rfl

@[simp] theorem staleStep_pending  (s : State) : (staleStep  s).pending = s.pending := by
  unfold staleStep; (try dsimp only); (repeat' split) <;> first | (simp_all; done) | rfl

@[simp] theorem enterRamping_pending  (s : State) : (enterRamping  s).pending = s.pending := by
  unfold enterRamping; (try dsimp only); (repeat' split) <;> first | (simp_all; done) | rfl

@[simp] theorem admission_pending  (s : State) : (admission  s).pending = s.pending := by
  unfold admission; (try dsimp only); (repeat' split) <;> first | (simp_all; done) | rfl

@[simp] theorem cardRecord_pending  (s : State) : (cardRecord  s).pending = s.pending := by
  unfold cardRecord; (try dsimp only); (repeat' split) <;> first | (simp_all; done) | rfl

@[simp] theorem roleStep_pending (r : Role) (s : State) : (roleStep r s).pending = s.pending := by
  unfold roleStep; (try dsimp only); (repeat' split) <;> first | (simp_all; done) | rfl

@[simp] theorem completeRound_pending (r : Role) (w : PostWord) (posts : List PostWord) (cell263 : Bool) (s : State) : (completeRound r w posts cell263 s).pending = s.pending := by
  unfold completeRound; (try dsimp only); (repeat' split) <;> first | (simp_all; done) | rfl

@[simp] theorem stopReported_pending (r : Role) (s : State) : (stopReported r s).pending = s.pending := by
  unfold stopReported; (try dsimp only); (repeat' split) <;> first | (simp_all; done) | rfl

@[simp] theorem stopEnded_pending (r : Role) (s : State) : (stopEnded r s).pending = s.pending := by
  unfold stopEnded; (try dsimp only); (repeat' split) <;> first | (simp_all; done) | rfl

@[simp] theorem resetState_pending (c : ResetCause) (s : State) : (resetState c s).pending = s.pending := by
  unfold resetState; (try dsimp only); (repeat' split) <;> first | (simp_all; done) | rfl

@[simp] theorem enterFault_pending (c : Cause) (s : State) : (enterFault c s).pending = s.pending := by
  unfold enterFault; (try dsimp only); (repeat' split) <;> first | (simp_all; done) | rfl

@[simp] theorem releaseReset_pending (a : Addr) (r : BitVec 2) (high : Bool) (s : State) : (releaseReset a r high s).pending = s.pending := by
  unfold releaseReset; (try dsimp only); (repeat' split) <;> first | (simp_all; done) | rfl

@[simp] theorem purgeExit_pending  (s : State) : (purgeExit  s).pending = s.pending := by
  unfold purgeExit; (try dsimp only); (repeat' split) <;> first | (simp_all; done) | rfl

@[simp] theorem startRole_pending (r : Role) (seat infeedClear : Bool) (s : State) : (startRole r seat infeedClear s).pending = s.pending := by
  unfold startRole; (try dsimp only); (repeat' split) <;> first | (simp_all; done) | rfl

@[simp] theorem releaseLine_pending  (s : State) : (releaseLine  s).pending = s.pending := by
  unfold releaseLine; (try dsimp only); (repeat' split) <;> first | (simp_all; done) | rfl

@[simp] theorem takeProfile_pending (r : Role) (items : List (Nat × List Byte)) (seat infeedClear : Bool) (s : State) : (takeProfile r items seat infeedClear s).pending = s.pending := by
  unfold takeProfile; (try dsimp only); (repeat' split) <;> first | (simp_all; done) | rfl

@[simp] theorem checkImage_pending (r : Role) (im : List Byte) (seat infeedClear : Bool) (s : State) : (checkImage r im seat infeedClear s).pending = s.pending := by
  unfold checkImage; (try dsimp only); (repeat' split) <;> first | (simp_all; done) | rfl

@[simp] theorem readImage_pending (r : Role) (im : List Byte) (seat infeedClear : Bool) (s : State) : (readImage r im seat infeedClear s).pending = s.pending := by
  unfold readImage; (try dsimp only); (repeat' split) <;> first | (simp_all; done) | rfl

end Sys2Proof.Machine
end

