-- ==== Sys2Proof/Laws/Frames.lean ====
section
/-! SUPPORT. What each operation of a family leaves alone: the state outside the family's blocks. -/

namespace Sys2Proof.Machine

set_option linter.all false

@[simp] theorem State.withInputs_outsideHead (s : State) (x : Pins) :
    (s.withInputs x).outsideHead = s.outsideHead := rfl
@[simp] theorem State.withTsq_outsideHead (s : State) (x : Tsq) :
    (s.withTsq x).outsideHead = s.outsideHead := rfl
@[simp] theorem State.withMsu_outsideHead (s : State) (x : Msu) :
    (s.withMsu x).outsideHead = s.outsideHead := rfl
@[simp] theorem State.withAdm_outsideHead (s : State) (x : Adm) :
    (s.withAdm x).outsideHead = s.outsideHead := rfl
@[simp] theorem State.withIlk_outsideHead (s : State) (x : Ilk) :
    (s.withIlk x).outsideHead = s.outsideHead := rfl
@[simp] theorem onTest_outsideHead (f : TestPart → TestPart) (s : State) :
    (onTest f s).outsideHead = s.outsideHead := by
  unfold onTest; (try dsimp only); (repeat' split) <;> first | (simp_all; done) | rfl
@[simp] theorem assembleSlot_outsideHead  (s : State) :
    (assembleSlot  s).outsideHead = s.outsideHead := by
  unfold assembleSlot; (try dsimp only); (repeat' split) <;> first | (simp_all; done) | rfl
@[simp] theorem leaveHolding_outsideHead  (s : State) :
    (leaveHolding  s).outsideHead = s.outsideHead := by
  unfold leaveHolding; (try dsimp only); (repeat' split) <;> first | (simp_all; done) | rfl
@[simp] theorem abandonPhase_outsideHead  (s : State) :
    (abandonPhase  s).outsideHead = s.outsideHead := by
  unfold abandonPhase; (try dsimp only); (repeat' split) <;> first | (simp_all; done) | rfl
@[simp] theorem senseInputs_outsideHead (p : Pins) (s : State) :
    (senseInputs p s).outsideHead = s.outsideHead := by
  unfold senseInputs; (try dsimp only); (repeat' split) <;> first | (simp_all; done) | rfl
@[simp] theorem readChannels_outsideHead (x : Sample) (s : State) :
    (readChannels x s).outsideHead = s.outsideHead := by
  unfold readChannels; (try dsimp only); (repeat' split) <;> first | (simp_all; done) | rfl
@[simp] theorem openTick_outsideHead (o : TickOrder) (s : State) :
    (openTick o s).outsideHead = s.outsideHead := by
  unfold openTick; (try dsimp only); (repeat' split) <;> first | (simp_all; done) | rfl
@[simp] theorem enterPhase_outsideHead (h : HeadState) (s : State) :
    (enterPhase h s).outsideHead = s.outsideHead := by
  unfold enterPhase; (try dsimp only); (repeat' split) <;> first | (simp_all; done) | rfl
@[simp] theorem enterOos_outsideHead (c : Cause) (s : State) :
    (enterOos c s).outsideHead = s.outsideHead := by
  unfold enterOos; (try dsimp only); (repeat' split) <;> first | (simp_all; done) | rfl
@[simp] theorem enterIdle_outsideHead  (s : State) :
    (enterIdle  s).outsideHead = s.outsideHead := by
  unfold enterIdle; (try dsimp only); (repeat' split) <;> first | (simp_all; done) | rfl
@[simp] theorem enterDone_outsideHead  (s : State) :
    (enterDone  s).outsideHead = s.outsideHead := by
  unfold enterDone; (try dsimp only); (repeat' split) <;> first | (simp_all; done) | rfl
@[simp] theorem enterLocked_outsideHead (h : HeadState) (s : State) :
    (enterLocked h s).outsideHead = s.outsideHead := by
  unfold enterLocked; (try dsimp only); (repeat' split) <;> first | (simp_all; done) | rfl
@[simp] theorem enterDraining_outsideHead  (s : State) :
    (enterDraining  s).outsideHead = s.outsideHead := by
  unfold enterDraining; (try dsimp only); (repeat' split) <;> first | (simp_all; done) | rfl
@[simp] theorem openGate_outsideHead  (s : State) :
    (openGate  s).outsideHead = s.outsideHead := by
  unfold openGate; (try dsimp only); (repeat' split) <;> first | (simp_all; done) | rfl
@[simp] theorem enterUnloading_outsideHead  (s : State) :
    (enterUnloading  s).outsideHead = s.outsideHead := by
  unfold enterUnloading; (try dsimp only); (repeat' split) <;> first | (simp_all; done) | rfl
@[simp] theorem latchOne_outsideHead (c : Cause) (s : State) :
    (latchOne c s).outsideHead = s.outsideHead := by
  unfold latchOne; (try dsimp only); (repeat' split) <;> first | (simp_all; done) | rfl
@[simp] theorem latchAll_outsideHead (cs : List Cause) (s : State) :
    (latchAll cs s).outsideHead = s.outsideHead := by
  unfold latchAll
  induction cs generalizing s with
  | nil => rfl
  | cons c cs ih => simp [ih]
@[simp] theorem enterSafe_outsideHead  (s : State) :
    (enterSafe  s).outsideHead = s.outsideHead := by
  unfold enterSafe; (try dsimp only); (repeat' split) <;> first | (simp_all; done) | rfl
@[simp] theorem reenter_outsideHead (h : HeadState) (s : State) :
    (reenter h s).outsideHead = s.outsideHead := by
  unfold reenter; (try dsimp only); (repeat' split) <;> first | (simp_all; done) | rfl
@[simp] theorem leaveSafe_outsideHead  (s : State) :
    (leaveSafe  s).outsideHead = s.outsideHead := by
  unfold leaveSafe; (try dsimp only); (repeat' split) <;> first | (simp_all; done) | rfl
@[simp] theorem chooseNext_outsideHead  (s : State) :
    (chooseNext  s).outsideHead = s.outsideHead := by
  unfold chooseNext; (try dsimp only); (repeat' split) <;> first | (simp_all; done) | rfl
@[simp] theorem respond_outsideHead  (s : State) :
    (respond  s).outsideHead = s.outsideHead := by
  unfold respond; (try dsimp only); (repeat' split) <;> first | (simp_all; done) | rfl
@[simp] theorem raise_outsideHead (cs : List Cause) (s : State) :
    (raise cs s).outsideHead = s.outsideHead := by
  unfold raise; (try dsimp only); (repeat' split) <;> first | (simp_all; done) | rfl
@[simp] theorem completeResponse_outsideHead  (s : State) :
    (completeResponse  s).outsideHead = s.outsideHead := by
  unfold completeResponse; (try dsimp only); (repeat' split) <;> first | (simp_all; done) | rfl
@[simp] theorem withInput_outsideHead (f : Pins → Pins) (s : State) :
    (withInput f s).outsideHead = s.outsideHead := by
  unfold withInput; (try dsimp only); (repeat' split) <;> first | (simp_all; done) | rfl
@[simp] theorem atHead_outsideHead (f : State → State) (hf : ∀ x0, (f x0).outsideHead = x0.outsideHead) (s : State) :
    (atHead f s).outsideHead = s.outsideHead := by
  unfold atHead; (try dsimp only); (repeat' split) <;> first | (simp_all; done) | rfl
@[simp] theorem estopRead_outsideHead (o : TickOrder) (s : State) :
    (estopRead o s).outsideHead = s.outsideHead := by
  unfold estopRead; (try dsimp only); (repeat' split) <;> first | (simp_all; done) | rfl
@[simp] theorem pswEdge_outsideHead (o : TickOrder) (s : State) :
    (pswEdge o s).outsideHead = s.outsideHead := by
  unfold pswEdge; (try dsimp only); (repeat' split) <;> first | (simp_all; done) | rfl
@[simp] theorem abortEdge_outsideHead (o : TickOrder) (s : State) :
    (abortEdge o s).outsideHead = s.outsideHead := by
  unfold abortEdge; (try dsimp only); (repeat' split) <;> first | (simp_all; done) | rfl
@[simp] theorem lidRead_outsideHead (o : TickOrder) (s : State) :
    (lidRead o s).outsideHead = s.outsideHead := by
  unfold lidRead; (try dsimp only); (repeat' split) <;> first | (simp_all; done) | rfl
@[simp] theorem seatRead_outsideHead (o : TickOrder) (s : State) :
    (seatRead o s).outsideHead = s.outsideHead := by
  unfold seatRead; (try dsimp only); (repeat' split) <;> first | (simp_all; done) | rfl
@[simp] theorem lidClosedRead_outsideHead (o : TickOrder) (s : State) :
    (lidClosedRead o s).outsideHead = s.outsideHead := by
  unfold lidClosedRead; (try dsimp only); (repeat' split) <;> first | (simp_all; done) | rfl
@[simp] theorem enterReading_outsideHead (h : HeadState) (s : State) :
    (enterReading h s).outsideHead = s.outsideHead := by
  unfold enterReading; (try dsimp only); (repeat' split) <;> first | (simp_all; done) | rfl
@[simp] theorem fillRead_outsideHead (o : TickOrder) (s : State) :
    (fillRead o s).outsideHead = s.outsideHead := by
  unfold fillRead; (try dsimp only); (repeat' split) <;> first | (simp_all; done) | rfl
@[simp] theorem loadExpiry_outsideHead (o : TickOrder) (s : State) :
    (loadExpiry o s).outsideHead = s.outsideHead := by
  unfold loadExpiry; (try dsimp only); (repeat' split) <;> first | (simp_all; done) | rfl
@[simp] theorem expiryCause_outsideHead (o : TickOrder) (c : Cause) (s : State) :
    (expiryCause o c s).outsideHead = s.outsideHead := by
  unfold expiryCause; (try dsimp only); (repeat' split) <;> first | (simp_all; done) | rfl
@[simp] theorem fillExpiry_outsideHead (o : TickOrder) (s : State) :
    (fillExpiry o s).outsideHead = s.outsideHead := by
  unfold fillExpiry; (try dsimp only); (repeat' split) <;> first | (simp_all; done) | rfl
@[simp] theorem rampExpiry_outsideHead (o : TickOrder) (s : State) :
    (rampExpiry o s).outsideHead = s.outsideHead := by
  unfold rampExpiry; (try dsimp only); (repeat' split) <;> first | (simp_all; done) | rfl
@[simp] theorem holdExpiry_outsideHead (o : TickOrder) (s : State) :
    (holdExpiry o s).outsideHead = s.outsideHead := by
  unfold holdExpiry; (try dsimp only); (repeat' split) <;> first | (simp_all; done) | rfl
@[simp] theorem drainExpiry_outsideHead (o : TickOrder) (s : State) :
    (drainExpiry o s).outsideHead = s.outsideHead := by
  unfold drainExpiry; (try dsimp only); (repeat' split) <;> first | (simp_all; done) | rfl
@[simp] theorem patienceExpiry_outsideHead (o : TickOrder) (s : State) :
    (patienceExpiry o s).outsideHead = s.outsideHead := by
  unfold patienceExpiry; (try dsimp only); (repeat' split) <;> first | (simp_all; done) | rfl
@[simp] theorem endUnload_outsideHead  (s : State) :
    (endUnload  s).outsideHead = s.outsideHead := by
  unfold endUnload; (try dsimp only); (repeat' split) <;> first | (simp_all; done) | rfl
@[simp] theorem unloadRead_outsideHead (o : TickOrder) (s : State) :
    (unloadRead o s).outsideHead = s.outsideHead := by
  unfold unloadRead; (try dsimp only); (repeat' split) <;> first | (simp_all; done) | rfl
@[simp] theorem unloadExpiry_outsideHead (o : TickOrder) (s : State) :
    (unloadExpiry o s).outsideHead = s.outsideHead := by
  unfold unloadExpiry; (try dsimp only); (repeat' split) <;> first | (simp_all; done) | rfl
@[simp] theorem clearTaken_outsideHead (o : TickOrder) (s : State) :
    (clearTaken o s).outsideHead = s.outsideHead := by
  unfold clearTaken; (try dsimp only); (repeat' split) <;> first | (simp_all; done) | rfl
@[simp] theorem advanceTimers_outsideHead  (s : State) :
    (advanceTimers  s).outsideHead = s.outsideHead := by
  unfold advanceTimers; (try dsimp only); (repeat' split) <;> first | (simp_all; done) | rfl
@[simp] theorem rearm_outsideHead  (s : State) :
    (rearm  s).outsideHead = s.outsideHead := by
  unfold rearm; (try dsimp only); (repeat' split) <;> first | (simp_all; done) | rfl
@[simp] theorem raisePeak_outsideHead (p : Nat) (s : State) :
    (raisePeak p s).outsideHead = s.outsideHead := by
  unfold raisePeak; (try dsimp only); (repeat' split) <;> first | (simp_all; done) | rfl
@[simp] theorem enterHolding_outsideHead (p : Nat) (s : State) :
    (enterHolding p s).outsideHead = s.outsideHead := by
  unfold enterHolding; (try dsimp only); (repeat' split) <;> first | (simp_all; done) | rfl
@[simp] theorem addHold_outsideHead (p : Nat) (s : State) :
    (addHold p s).outsideHead = s.outsideHead := by
  unfold addHold; (try dsimp only); (repeat' split) <;> first | (simp_all; done) | rfl
@[simp] theorem usePressure_outsideHead (owed : Bool) (s : State) :
    (usePressure owed s).outsideHead = s.outsideHead := by
  unfold usePressure; (try dsimp only); (repeat' split) <;> first | (simp_all; done) | rfl
@[simp] theorem withWindow_outsideHead (w : Window) (s : State) :
    (withWindow w s).outsideHead = s.outsideHead := by
  unfold withWindow; (try dsimp only); (repeat' split) <;> first | (simp_all; done) | rfl
@[simp] theorem zeroReading_outsideHead (sum t : Nat) (s : State) :
    (zeroReading sum t s).outsideHead = s.outsideHead := by
  unfold zeroReading; (try dsimp only); (repeat' split) <;> first | (simp_all; done) | rfl
@[simp] theorem totalReading_outsideHead (sum t : Nat) (s : State) :
    (totalReading sum t s).outsideHead = s.outsideHead := by
  unfold totalReading; (try dsimp only); (repeat' split) <;> first | (simp_all; done) | rfl
@[simp] theorem permanentReading_outsideHead (sum t : Nat) (s : State) :
    (permanentReading sum t s).outsideHead = s.outsideHead := by
  unfold permanentReading; (try dsimp only); (repeat' split) <;> first | (simp_all; done) | rfl
@[simp] theorem takeReading_outsideHead (h : HeadState) (sum t : Nat) (s : State) :
    (takeReading h sum t s).outsideHead = s.outsideHead := by
  unfold takeReading; (try dsimp only); (repeat' split) <;> first | (simp_all; done) | rfl
@[simp] theorem judgeWindow_outsideHead (h : HeadState) (w : Window) (s : State) :
    (judgeWindow h w s).outsideHead = s.outsideHead := by
  unfold judgeWindow; (try dsimp only); (repeat' split) <;> first | (simp_all; done) | rfl
@[simp] theorem useWindow_outsideHead (h : HeadState) (x : Sample) (s : State) :
    (useWindow h x s).outsideHead = s.outsideHead := by
  unfold useWindow; (try dsimp only); (repeat' split) <;> first | (simp_all; done) | rfl
@[simp] theorem windowStage_outsideHead (phase : Option HeadState) (x : Sample) (s : State) :
    (windowStage phase x s).outsideHead = s.outsideHead := by
  unfold windowStage; (try dsimp only); (repeat' split) <;> first | (simp_all; done) | rfl
@[simp] theorem tickRead_outsideHead (pins : Pins) (x : Sample) (s : State) :
    (tickRead pins x s).outsideHead = s.outsideHead := by simp [tickRead]
@[simp] theorem headSample_outsideHead (pins : Pins) (x : Sample) (s : State) :
    (headSample pins x s).outsideHead = s.outsideHead := by
  unfold headSample; (try dsimp only); (repeat' split) <;> first | (simp_all; done) | rfl

@[simp] theorem State.withTxq_outsideIntake (s : State) (x : List TxMsg) :
    (s.withTxq x).outsideIntake = s.outsideIntake := rfl
@[simp] theorem State.withPorts_outsideIntake (s : State) (x : Ports) :
    (s.withPorts x).outsideIntake = s.outsideIntake := rfl
@[simp] theorem State.withIeu_outsideIntake (s : State) (x : Ieu) :
    (s.withIeu x).outsideIntake = s.outsideIntake := rfl
@[simp] theorem State.withHistory_outsideIntake (s : State) (x : List HistSet) :
    (s.withHistory x).outsideIntake = s.outsideIntake := rfl
@[simp] theorem queueMsg_outsideIntake (m : TxMsg) (s : State) :
    (queueMsg m s).outsideIntake = s.outsideIntake := by
  unfold queueMsg; (try dsimp only); (repeat' split) <;> first | (simp_all; done) | rfl
@[simp] theorem withdrawMsg_outsideIntake (k : MsgKind) (s : State) :
    (withdrawMsg k s).outsideIntake = s.outsideIntake := by
  unfold withdrawMsg; (try dsimp only); (repeat' split) <;> first | (simp_all; done) | rfl
@[simp] theorem removeContender_outsideIntake  (s : State) :
    (removeContender  s).outsideIntake = s.outsideIntake := by
  unfold removeContender; (try dsimp only); (repeat' split) <;> first | (simp_all; done) | rfl
@[simp] theorem countUnaccepted_outsideIntake  (s : State) :
    (countUnaccepted  s).outsideIntake = s.outsideIntake := by
  unfold countUnaccepted; (try dsimp only); (repeat' split) <;> first | (simp_all; done) | rfl
@[simp] theorem takeNote_outsideIntake (n : Note) (s : State) :
    (takeNote n s).outsideIntake = s.outsideIntake := by
  unfold takeNote; (try dsimp only); (repeat' split) <;> first | (simp_all; done) | rfl
@[simp] theorem intakeStop_outsideIntake  (s : State) :
    (intakeStop  s).outsideIntake = s.outsideIntake := by
  unfold intakeStop; (try dsimp only); (repeat' split) <;> first | (simp_all; done) | rfl
@[simp] theorem intakeResume_outsideIntake  (s : State) :
    (intakeResume  s).outsideIntake = s.outsideIntake := by
  unfold intakeResume; (try dsimp only); (repeat' split) <;> first | (simp_all; done) | rfl
@[simp] theorem reply_outsideIntake (r : Reply) (s : State) :
    (reply r s).outsideIntake = s.outsideIntake := by
  unfold reply; (try dsimp only); (repeat' split) <;> first | (simp_all; done) | rfl
@[simp] theorem terminalLine_outsideIntake (l : PortLine) (f : LineBuffer → State → State) (hf : ∀ x0 x1, (f x0 x1).outsideIntake = x1.outsideIntake) (s : State) :
    (terminalLine l f s).outsideIntake = s.outsideIntake := by
  unfold terminalLine; (try dsimp only); (repeat' split) <;> first | (simp_all; done) | rfl
@[simp] theorem entryChecks_outsideIntake (form : List Text → Bool) (act : List Text → State → State) (b : LineBuffer) (hact : ∀ x0 x1, (act x0 x1).outsideIntake = x1.outsideIntake) (s : State) :
    (entryChecks form act b s).outsideIntake = s.outsideIntake := by
  unfold entryChecks; (try dsimp only); (repeat' split) <;> first | (simp_all; done) | rfl
@[simp] theorem takePeriod_outsideIntake (args : List Text) (s : State) :
    (takePeriod args s).outsideIntake = s.outsideIntake := by
  unfold takePeriod; (try dsimp only); (repeat' split) <;> first | (simp_all; done) | rfl
@[simp] theorem takeMass_outsideIntake (args : List Text) (s : State) :
    (takeMass args s).outsideIntake = s.outsideIntake := by
  unfold takeMass; (try dsimp only); (repeat' split) <;> first | (simp_all; done) | rfl
@[simp] theorem takeFind_outsideIntake (args : List Text) (s : State) :
    (takeFind args s).outsideIntake = s.outsideIntake := by
  unfold takeFind; (try dsimp only); (repeat' split) <;> first | (simp_all; done) | rfl
@[simp] theorem takeCancel_outsideIntake (args : List Text) (s : State) :
    (takeCancel args s).outsideIntake = s.outsideIntake := by
  unfold takeCancel; (try dsimp only); (repeat' split) <;> first | (simp_all; done) | rfl
@[simp] theorem takeClear_outsideIntake (args : List Text) (s : State) :
    (takeClear args s).outsideIntake = s.outsideIntake := by
  unfold takeClear; (try dsimp only); (repeat' split) <;> first | (simp_all; done) | rfl
@[simp] theorem takeReader_outsideIntake (b : LineBuffer) (s : State) :
    (takeReader b s).outsideIntake = s.outsideIntake := by
  unfold takeReader; (try dsimp only); (repeat' split) <;> first | (simp_all; done) | rfl
@[simp] theorem readerRead_outsideIntake (l : PortLine) (s : State) :
    (readerRead l s).outsideIntake = s.outsideIntake := by
  unfold readerRead; (try dsimp only); (repeat' split) <;> first | (simp_all; done) | rfl
@[simp] theorem evaluate_outsideIntake (per : Period) (mass : Nat) (d : Docket) (s : State) :
    (evaluate per mass d s).outsideIntake = s.outsideIntake := by
  unfold evaluate; (try dsimp only); (repeat' split) <;> first | (simp_all; done) | rfl
@[simp] theorem joinDocket_outsideIntake (d : Docket) (s : State) :
    (joinDocket d s).outsideIntake = s.outsideIntake := by
  unfold joinDocket; (try dsimp only); (repeat' split) <;> first | (simp_all; done) | rfl
@[simp] theorem tryJoin_outsideIntake  (s : State) :
    (tryJoin  s).outsideIntake = s.outsideIntake := by
  unfold tryJoin; (try dsimp only); (repeat' split) <;> first | (simp_all; done) | rfl
@[simp] theorem takeClose_outsideIntake (args : List Text) (s : State) :
    (takeClose args s).outsideIntake = s.outsideIntake := by
  unfold takeClose; (try dsimp only); (repeat' split) <;> first | (simp_all; done) | rfl
@[simp] theorem offerAccepted_outsideIntake (a : Addr) (s : State) :
    (offerAccepted a s).outsideIntake = s.outsideIntake := by
  unfold offerAccepted; (try dsimp only); (repeat' split) <;> first | (simp_all; done) | rfl
@[simp] theorem directAccepted_outsideIntake  (s : State) :
    (directAccepted  s).outsideIntake = s.outsideIntake := by
  unfold directAccepted; (try dsimp only); (repeat' split) <;> first | (simp_all; done) | rfl
@[simp] theorem directDropped_outsideIntake  (s : State) :
    (directDropped  s).outsideIntake = s.outsideIntake := by
  unfold directDropped; (try dsimp only); (repeat' split) <;> first | (simp_all; done) | rfl
@[simp] theorem noHeadMove_outsideIntake (d : Docket) (s : State) :
    (noHeadMove d s).outsideIntake = s.outsideIntake := by
  unfold noHeadMove; (try dsimp only); (repeat' split) <;> first | (simp_all; done) | rfl
@[simp] theorem offerDecision_outsideIntake  (s : State) :
    (offerDecision  s).outsideIntake = s.outsideIntake := by
  unfold offerDecision; (try dsimp only); (repeat' split) <;> first | (simp_all; done) | rfl
@[simp] theorem directDecision_outsideIntake  (s : State) :
    (directDecision  s).outsideIntake = s.outsideIntake := by
  unfold directDecision; (try dsimp only); (repeat' split) <;> first | (simp_all; done) | rfl
@[simp] theorem intakeConflict_outsideIntake  (s : State) :
    (intakeConflict  s).outsideIntake = s.outsideIntake := by
  unfold intakeConflict; (try dsimp only); (repeat' split) <;> first | (simp_all; done) | rfl

@[simp] theorem State.withInputs_outsideDsu (s : State) (x : Pins) :
    (s.withInputs x).outsideDsu = s.outsideDsu := rfl
@[simp] theorem State.withTxq_outsideDsu (s : State) (x : List TxMsg) :
    (s.withTxq x).outsideDsu = s.outsideDsu := rfl
@[simp] theorem State.withPorts_outsideDsu (s : State) (x : Ports) :
    (s.withPorts x).outsideDsu = s.outsideDsu := rfl
@[simp] theorem State.withDsu_outsideDsu (s : State) (x : Dsu) :
    (s.withDsu x).outsideDsu = s.outsideDsu := rfl
@[simp] theorem State.withFreeCount_outsideDsu (s : State) (x : Nat) :
    (s.withFreeCount x).outsideDsu = s.outsideDsu := rfl
@[simp] theorem queueMsg_outsideDsu (m : TxMsg) (s : State) :
    (queueMsg m s).outsideDsu = s.outsideDsu := by
  unfold queueMsg; (try dsimp only); (repeat' split) <;> first | (simp_all; done) | rfl
@[simp] theorem withdrawMsg_outsideDsu (k : MsgKind) (s : State) :
    (withdrawMsg k s).outsideDsu = s.outsideDsu := by
  unfold withdrawMsg; (try dsimp only); (repeat' split) <;> first | (simp_all; done) | rfl
@[simp] theorem removeContender_outsideDsu  (s : State) :
    (removeContender  s).outsideDsu = s.outsideDsu := by
  unfold removeContender; (try dsimp only); (repeat' split) <;> first | (simp_all; done) | rfl
@[simp] theorem countUnaccepted_outsideDsu  (s : State) :
    (countUnaccepted  s).outsideDsu = s.outsideDsu := by
  unfold countUnaccepted; (try dsimp only); (repeat' split) <;> first | (simp_all; done) | rfl
@[simp] theorem queueNote_outsideDsu (d : Docket) (s : State) :
    (queueNote d s).outsideDsu = s.outsideDsu := by
  unfold queueNote; (try dsimp only); (repeat' split) <;> first | (simp_all; done) | rfl
@[simp] theorem finishLine_outsideDsu (w : Waiter) (s : State) :
    (finishLine w s).outsideDsu = s.outsideDsu := by
  unfold finishLine; (try dsimp only); (repeat' split) <;> first | (simp_all; done) | rfl
@[simp] theorem enterBuffer_outsideDsu (w : Waiter) (s : State) :
    (enterBuffer w s).outsideDsu = s.outsideDsu := by
  unfold enterBuffer; (try dsimp only); (repeat' split) <;> first | (simp_all; done) | rfl
@[simp] theorem produceLine_outsideDsu (w : Waiter) (s : State) :
    (produceLine w s).outsideDsu = s.outsideDsu := by
  unfold produceLine; (try dsimp only); (repeat' split) <;> first | (simp_all; done) | rfl
@[simp] theorem lineSent_outsideDsu  (s : State) :
    (lineSent  s).outsideDsu = s.outsideDsu := by
  unfold lineSent; (try dsimp only); (repeat' split) <;> first | (simp_all; done) | rfl
@[simp] theorem sendRecord_outsideDsu (cts : Bool) (s : State) :
    (sendRecord cts s).outsideDsu = s.outsideDsu := by
  unfold sendRecord; (try dsimp only); (repeat' split) <;> first | (simp_all; done) | rfl
@[simp] theorem setPhase_outsideDsu (p : ActionPhase) (s : State) :
    (setPhase p s).outsideDsu = s.outsideDsu := by
  unfold setPhase; (try dsimp only); (repeat' split) <;> first | (simp_all; done) | rfl
@[simp] theorem enterLane_outsideDsu (lane : BitVec 2) (s : State) :
    (enterLane lane s).outsideDsu = s.outsideDsu := by
  unfold enterLane; (try dsimp only); (repeat' split) <;> first | (simp_all; done) | rfl
@[simp] theorem settle_outsideDsu (disp : Disposition) (cause : Option Cause) (lane : BitVec 2) (s : State) :
    (settle disp cause lane s).outsideDsu = s.outsideDsu := by
  unfold settle; (try dsimp only); (repeat' split) <;> first | (simp_all; done) | rfl
@[simp] theorem laneEnd_outsideDsu  (s : State) :
    (laneEnd  s).outsideDsu = s.outsideDsu := by
  unfold laneEnd; (try dsimp only); (repeat' split) <;> first | (simp_all; done) | rfl
@[simp] theorem startPunch_outsideDsu  (s : State) :
    (startPunch  s).outsideDsu = s.outsideDsu := by
  unfold startPunch; (try dsimp only); (repeat' split) <;> first | (simp_all; done) | rfl
@[simp] theorem punchDone_outsideDsu  (s : State) :
    (punchDone  s).outsideDsu = s.outsideDsu := by
  unfold punchDone; (try dsimp only); (repeat' split) <;> first | (simp_all; done) | rfl
@[simp] theorem punchExpiry_outsideDsu  (s : State) :
    (punchExpiry  s).outsideDsu = s.outsideDsu := by
  unfold punchExpiry; (try dsimp only); (repeat' split) <;> first | (simp_all; done) | rfl
@[simp] theorem exchange_outsideDsu (cmd : BitVec 24) (nextSeq : Nat) (r : LinkReply) (onReply : Except Cause (BitVec 24) → State → State) (honReply : ∀ x0 x1, (onReply x0 x1).outsideDsu = x1.outsideDsu) (s : State) :
    (exchange cmd nextSeq r onReply s).outsideDsu = s.outsideDsu := by
  unfold exchange; (try dsimp only); (repeat' split) <;> first | (simp_all; done) | rfl
@[simp] theorem markFault_outsideDsu (c : Cause) (s : State) :
    (markFault c s).outsideDsu = s.outsideDsu := by
  unfold markFault; (try dsimp only); (repeat' split) <;> first | (simp_all; done) | rfl
@[simp] theorem onLink_outsideDsu (good : BitVec 24 → State → State) (r : Except Cause (BitVec 24)) (hgood : ∀ x0 x1, (good x0 x1).outsideDsu = x1.outsideDsu) (s : State) :
    (onLink good r s).outsideDsu = s.outsideDsu := by
  unfold onLink; (try dsimp only); (repeat' split) <;> first | (simp_all; done) | rfl
@[simp] theorem linkClear_outsideDsu (r : LinkReply) (s : State) :
    (linkClear r s).outsideDsu = s.outsideDsu := by
  unfold linkClear; (try dsimp only); (repeat' split) <;> first | (simp_all; done) | rfl
@[simp] theorem linkLoad_outsideDsu (r : LinkReply) (s : State) :
    (linkLoad r s).outsideDsu = s.outsideDsu := by
  unfold linkLoad; (try dsimp only); (repeat' split) <;> first | (simp_all; done) | rfl
@[simp] theorem queryReply_outsideDsu (w : BitVec 24) (s : State) :
    (queryReply w s).outsideDsu = s.outsideDsu := by
  unfold queryReply; (try dsimp only); (repeat' split) <;> first | (simp_all; done) | rfl
@[simp] theorem pollReply_outsideDsu (w : BitVec 24) (s : State) :
    (pollReply w s).outsideDsu = s.outsideDsu := by
  unfold pollReply; (try dsimp only); (repeat' split) <;> first | (simp_all; done) | rfl
@[simp] theorem linkQuery_outsideDsu (r : LinkReply) (s : State) :
    (linkQuery r s).outsideDsu = s.outsideDsu := by
  unfold linkQuery; (try dsimp only); (repeat' split) <;> first | (simp_all; done) | rfl
@[simp] theorem linkStrike_outsideDsu (r : LinkReply) (s : State) :
    (linkStrike r s).outsideDsu = s.outsideDsu := by
  unfold linkStrike; (try dsimp only); (repeat' split) <;> first | (simp_all; done) | rfl
@[simp] theorem strikeExpiry_outsideDsu  (s : State) :
    (strikeExpiry  s).outsideDsu = s.outsideDsu := by
  unfold strikeExpiry; (try dsimp only); (repeat' split) <;> first | (simp_all; done) | rfl
@[simp] theorem putWork_outsideDsu (i : WorkItem) (p : ActionPhase) (s : State) :
    (putWork i p s).outsideDsu = s.outsideDsu := by
  unfold putWork; (try dsimp only); (repeat' split) <;> first | (simp_all; done) | rfl
@[simp] theorem beginAction_outsideDsu (d : Docket) (s : State) :
    (beginAction d s).outsideDsu = s.outsideDsu := by
  unfold beginAction; (try dsimp only); (repeat' split) <;> first | (simp_all; done) | rfl
@[simp] theorem identityRead_outsideDsu (m n : Text) (s : State) :
    (identityRead m n s).outsideDsu = s.outsideDsu := by
  unfold identityRead; (try dsimp only); (repeat' split) <;> first | (simp_all; done) | rfl
@[simp] theorem markRead_outsideDsu (l : PortLine) (s : State) :
    (markRead l s).outsideDsu = s.outsideDsu := by
  unfold markRead; (try dsimp only); (repeat' split) <;> first | (simp_all; done) | rfl
@[simp] theorem addArrival_outsideDsu (d : Docket) (s : State) :
    (addArrival d s).outsideDsu = s.outsideDsu := by
  unfold addArrival; (try dsimp only); (repeat' split) <;> first | (simp_all; done) | rfl
@[simp] theorem finishMissing_outsideDsu (i : Nat) (s : State) :
    (finishMissing i s).outsideDsu = s.outsideDsu := by
  unfold finishMissing; (try dsimp only); (repeat' split) <;> first | (simp_all; done) | rfl
@[simp] theorem returnAccepted_outsideDsu (d : Docket) (s : State) :
    (returnAccepted d s).outsideDsu = s.outsideDsu := by
  unfold returnAccepted; (try dsimp only); (repeat' split) <;> first | (simp_all; done) | rfl
@[simp] theorem callDecision_outsideDsu  (s : State) :
    (callDecision  s).outsideDsu = s.outsideDsu := by
  unfold callDecision; (try dsimp only); (repeat' split) <;> first | (simp_all; done) | rfl
@[simp] theorem withCall_outsideDsu (f : Call → Option Call) (s : State) :
    (withCall f s).outsideDsu = s.outsideDsu := by
  unfold withCall; (try dsimp only); (repeat' split) <;> first | (simp_all; done) | rfl
@[simp] theorem callAccepted_outsideDsu  (s : State) :
    (callAccepted  s).outsideDsu = s.outsideDsu := by
  unfold callAccepted; (try dsimp only); (repeat' split) <;> first | (simp_all; done) | rfl
@[simp] theorem callRefused_outsideDsu  (s : State) :
    (callRefused  s).outsideDsu = s.outsideDsu := by
  unfold callRefused; (try dsimp only); (repeat' split) <;> first | (simp_all; done) | rfl
@[simp] theorem callUnaccepted_outsideDsu  (s : State) :
    (callUnaccepted  s).outsideDsu = s.outsideDsu := by
  unfold callUnaccepted; (try dsimp only); (repeat' split) <;> first | (simp_all; done) | rfl
@[simp] theorem callExpiry_outsideDsu  (s : State) :
    (callExpiry  s).outsideDsu = s.outsideDsu := by
  unfold callExpiry; (try dsimp only); (repeat' split) <;> first | (simp_all; done) | rfl
@[simp] theorem disposeStop_outsideDsu  (s : State) :
    (disposeStop  s).outsideDsu = s.outsideDsu := by
  unfold disposeStop; (try dsimp only); (repeat' split) <;> first | (simp_all; done) | rfl
@[simp] theorem disposeResume_outsideDsu  (s : State) :
    (disposeResume  s).outsideDsu = s.outsideDsu := by
  unfold disposeResume; (try dsimp only); (repeat' split) <;> first | (simp_all; done) | rfl
@[simp] theorem panelReply_outsideDsu (r : Except Cause (BitVec 24)) (s : State) :
    (panelReply r s).outsideDsu = s.outsideDsu := by
  unfold panelReply; (try dsimp only); (repeat' split) <;> first | (simp_all; done) | rfl
@[simp] theorem panelClear_outsideDsu (r : LinkReply) (s : State) :
    (panelClear r s).outsideDsu = s.outsideDsu := by
  unfold panelClear; (try dsimp only); (repeat' split) <;> first | (simp_all; done) | rfl
@[simp] theorem disposeConflict_outsideDsu  (s : State) :
    (disposeConflict  s).outsideDsu = s.outsideDsu := by
  unfold disposeConflict; (try dsimp only); (repeat' split) <;> first | (simp_all; done) | rfl

end Sys2Proof.Machine
end

