-- ==== Sys2Proof/Laws/Head.lean ====
section
/-! SUPPORT. What the shared operations of a head do: the reading of a tick, the way to IDLE, the latch, SAFE. -/

namespace Sys2Proof.Machine

set_option linter.all false

/-! ### The inputs stay -/

@[simp] theorem onTest_inputs (f : TestPart → TestPart) (s : State) : (onTest f s).inputs = s.inputs := by
  unfold onTest; (try dsimp only); (repeat' split) <;> first | (simp_all; done) | rfl
@[simp] theorem assembleSlot_inputs (s : State) : (assembleSlot s).inputs = s.inputs := by
  unfold assembleSlot; (try dsimp only); (repeat' split) <;> first | (simp_all; done) | rfl
@[simp] theorem leaveHolding_inputs (s : State) : (leaveHolding s).inputs = s.inputs := by
  unfold leaveHolding; (try dsimp only); (repeat' split) <;> first | (simp_all; done) | rfl
@[simp] theorem abandonPhase_inputs (s : State) : (abandonPhase s).inputs = s.inputs := by
  unfold abandonPhase; (try dsimp only); (repeat' split) <;> first | (simp_all; done) | rfl
@[simp] theorem enterPhase_inputs (h : HeadState) (s : State) : (enterPhase h s).inputs = s.inputs := by
  unfold enterPhase; (try dsimp only); (repeat' split) <;> first | (simp_all; done) | rfl
@[simp] theorem enterOos_inputs (c : Cause) (s : State) : (enterOos c s).inputs = s.inputs := by
  unfold enterOos; (try dsimp only); (repeat' split) <;> first | (simp_all; done) | rfl
@[simp] theorem enterIdle_inputs (s : State) : (enterIdle s).inputs = s.inputs := by
  unfold enterIdle; (try dsimp only); (repeat' split) <;> first | (simp_all; done) | rfl
@[simp] theorem enterDone_inputs (s : State) : (enterDone s).inputs = s.inputs := by
  unfold enterDone; (try dsimp only); (repeat' split) <;> first | (simp_all; done) | rfl
@[simp] theorem enterLocked_inputs (h : HeadState) (s : State) : (enterLocked h s).inputs = s.inputs := by
  unfold enterLocked; (try dsimp only); (repeat' split) <;> first | (simp_all; done) | rfl
@[simp] theorem enterDraining_inputs (s : State) : (enterDraining s).inputs = s.inputs := by
  unfold enterDraining; (try dsimp only); (repeat' split) <;> first | (simp_all; done) | rfl
@[simp] theorem openGate_inputs (s : State) : (openGate s).inputs = s.inputs := by
  unfold openGate; (try dsimp only); (repeat' split) <;> first | (simp_all; done) | rfl
@[simp] theorem enterUnloading_inputs (s : State) : (enterUnloading s).inputs = s.inputs := by
  unfold enterUnloading; (try dsimp only); (repeat' split) <;> first | (simp_all; done) | rfl
@[simp] theorem latchOne_inputs (c : Cause) (s : State) : (latchOne c s).inputs = s.inputs := by
  unfold latchOne; (try dsimp only); (repeat' split) <;> first | (simp_all; done) | rfl
@[simp] theorem enterSafe_inputs (s : State) : (enterSafe s).inputs = s.inputs := by
  unfold enterSafe; (try dsimp only); (repeat' split) <;> first | (simp_all; done) | rfl
@[simp] theorem reenter_inputs (h : HeadState) (s : State) : (reenter h s).inputs = s.inputs := by
  unfold reenter; (try dsimp only); (repeat' split) <;> first | (simp_all; done) | rfl
@[simp] theorem leaveSafe_inputs (s : State) : (leaveSafe s).inputs = s.inputs := by
  unfold leaveSafe; (try dsimp only); (repeat' split) <;> first | (simp_all; done) | rfl
@[simp] theorem chooseNext_inputs (s : State) : (chooseNext s).inputs = s.inputs := by
  unfold chooseNext; (try dsimp only); (repeat' split) <;> first | (simp_all; done) | rfl
@[simp] theorem respond_inputs (s : State) : (respond s).inputs = s.inputs := by
  unfold respond; (try dsimp only); (repeat' split) <;> first | (simp_all; done) | rfl
@[simp] theorem latchAll_inputs (cs : List Cause) (s : State) : (latchAll cs s).inputs = s.inputs := by
  unfold latchAll
  induction cs generalizing s with
  | nil => rfl
  | cons c cs ih => simp [ih]
@[simp] theorem raise_inputs (cs : List Cause) (s : State) : (raise cs s).inputs = s.inputs := by simp [raise]

/-! ### The reading of a tick -/

theorem openTick_before (p : Pins) (x : Sample) (s : State) :
    openTick (.beforeSample p x) s =
      { s with
        inputs := p
        tsq := { s.tsq with tickOpen := true }
        ilk := { s.ilk with
          pswArmed := s.ilk.pswArmed || !p.psw, abortArmed := s.ilk.abortArmed || !p.abort
          clearArmed := s.ilk.clearArmed || !p.clear }
        msu := { s.msu with
          levelRail := atRail x.level, pressRail := atRail x.press, tempRail := atRail x.temp
          pressure := if atRail x.press then none else some (convertPressure s.params x.press) } } := rfl

/-- What the reading of a tick leaves: all but the inputs, the edge inputs' arming, the rails and the pressure, and the
mark of an open tick. -/
theorem openTick_kept (o : TickOrder) (s : State) :
    (openTick o s).loader = s.loader ∧ (openTick o s).params = s.params ∧ (openTick o s).lif = s.lif ∧
    (openTick o s).adm = s.adm ∧ (openTick o s).tsq = { s.tsq with tickOpen := (openTick o s).tsq.tickOpen } ∧
    (openTick o s).ilk = { s.ilk with
      pswArmed := (openTick o s).ilk.pswArmed, abortArmed := (openTick o s).ilk.abortArmed
      clearArmed := (openTick o s).ilk.clearArmed } ∧
    (openTick o s).msu = { s.msu with
      levelRail := (openTick o s).msu.levelRail, pressRail := (openTick o s).msu.pressRail
      tempRail := (openTick o s).msu.tempRail, pressure := (openTick o s).msu.pressure } := by
  cases o <;> exact ⟨rfl, rfl, rfl, rfl, rfl, rfl, rfl⟩

/-! ### The way to IDLE -/

theorem enterIdle_goes (s : State) : IdleOrOutOfService s.inputs.seat s.ilk.marks (enterIdle s) := by
  unfold IdleOrOutOfService enterIdle State.lowestMark
  cases hs : s.inputs.seat with
  | true => simp [enterOos, enterPhase]
  | false =>
    by_cases h1 : Cause.overpressure ∈ s.ilk.marks
    · simp [enterOos, enterPhase, h1]
    · by_cases h2 : Cause.pressureSwitch ∈ s.ilk.marks
      · simp [enterOos, enterPhase, h1, h2]
      · by_cases h3 : Cause.sensorRange ∈ s.ilk.marks <;> simp [enterOos, enterPhase, h1, h2, h3]

theorem enterIdle_kept (s : State) :
    enterIdle s = { s with tsq := (enterIdle s).tsq } ∧ (enterIdle s).tsq.docket = s.tsq.docket ∧
    (enterIdle s).tsq.caller = s.tsq.caller ∧ (enterIdle s).tsq.gateFlag = s.tsq.gateFlag ∧
    (enterIdle s).tsq.returnState = s.tsq.returnState ∧ (enterIdle s).tsq.safeFrom = s.tsq.safeFrom := by
  unfold enterIdle
  (repeat' split) <;> exact ⟨rfl, rfl, rfl, rfl, rfl, rfl⟩

/-! ### Priority -/

theorem Cause.mem_all (c : Cause) : c ∈ Cause.all := by cases c <;> decide

theorem Cause.all_sorted : Cause.all.Pairwise fun a b => a.code < b.code := by decide

theorem Cause.code_inj (a b : Cause) (h : a.code = b.code) : a = b := by
  have sorted := List.pairwise_iff_getElem.mp Cause.all_sorted
  obtain ⟨i, hi, rfl⟩ := List.getElem_of_mem a.mem_all
  obtain ⟨j, hj, rfl⟩ := List.getElem_of_mem b.mem_all
  rcases Nat.lt_trichotomy i j with l | l | l
  · have := sorted i j hi hj l; omega
  · subst l; rfl
  · have := sorted j i hj hi l; omega

/-- The condition of highest priority is the latched one of lowest code (R147). -/
theorem State.topLatched_iff (s : State) (c : Cause) :
    s.topLatched = some c ↔ c ∈ s.ilk.latched ∧ ∀ d ∈ s.ilk.latched, c.code ≤ d.code := by
  have fwd : ∀ x, s.topLatched = some x → x ∈ s.ilk.latched ∧ ∀ d ∈ s.ilk.latched, x.code ≤ d.code := by
    intro x h
    obtain ⟨hx, as, bs, split, absent⟩ := List.find?_eq_some_iff_append.mp h
    refine ⟨by simpa using hx, fun d hd => ?_⟩
    have sorted := Cause.all_sorted
    rw [split, List.pairwise_append] at sorted
    have m := d.mem_all
    rw [split, List.mem_append, List.mem_cons] at m
    rcases m with m | m | m
    · exact absurd (absent d m) (by simp [hd])
    · exact Nat.le_of_eq (by rw [m])
    · exact Nat.le_of_lt ((List.pairwise_cons.mp sorted.2.1).1 d m)
  refine ⟨fwd c, fun ⟨hc, least⟩ => ?_⟩
  cases ht : s.topLatched with
  | none => exact absurd (List.find?_eq_none.mp ht c c.mem_all) (by simp [hc])
  | some e =>
    have k := fwd e ht
    rw [Cause.code_inj e c (Nat.le_antisymm (k.2 c hc) (least e k.1))]

theorem topLatched_one (c : Cause) (s : State) (h : s.ilk.latched = [c]) : s.topLatched = some c :=
  (s.topLatched_iff c).mpr (by simp [h])

/-! ### The latch -/

/-- Nothing latches and nothing is taken when no cause arises and nothing is latched. -/
theorem raise_nil (s : State) (quiet : s.ilk.latched = []) : raise [] s = s := by
  have h : s.topLatched = none := by simp [State.topLatched, quiet]
  simp [raise, latchAll, respond, h]

/-- A condition that may not latch leaves the state as it is. -/
theorem latchOne_not (c : Cause) (s : State) (h : s.latches c = false) : latchOne c s = s := by
  simp [latchOne, h]

/-- One that latches is disarmed, and listed while a test is under way (R145, R146). -/
theorem latchOne_taken (c : Cause) (s : State) (h : s.latches c = true) :
    latchOne c s =
      { s with
        ilk := { s.ilk with latched := s.ilk.latched ++ [c], disarmed := s.ilk.disarmed ++ [c] }
        tsq := { s.tsq with
          docket := if s.testUnderWay then s.tsq.docket.map (Docket.onTest (·.append c)) else s.tsq.docket } } := by
  have same : State.testUnderWay { s with ilk := { s.ilk with
      latched := s.ilk.latched ++ [c], disarmed := s.ilk.disarmed ++ [c] } } = s.testUnderWay := rfl
  cases under : s.testUnderWay <;> simp [latchOne, h, State.withIlk, same, under, onTest, State.withTsq]

/-- Outside SAFE with nothing in force or latched, a condition latches when it is active and armed (R145). -/
theorem latches_outside (c : Cause) (h : HeadState) (s : State) (at' : s.tsq.state = some h) (out : h ≠ .safe)
    (free : s.ilk.inForce = none) (clear : s.ilk.latched = []) (active : c.activeIn h = true)
    (armed : s.condArmed c = true) : s.latches c = true := by
  unfold State.latches State.condActive
  rw [at']
  cases h <;> simp_all

/-! ### SAFE -/

theorem Docket.map_onTest (f g : TestPart → TestPart) (o : Option Docket) :
    (o.map (Docket.onTest f)).map (Docket.onTest g) = o.map (Docket.onTest (g ∘ f)) := by
  cases o <;> simp [Docket.onTest]

/-- The verdict assembly reads the docket outside its test part only (R140). -/
theorem Docket.assemble_onTest (p : Params) (f : TestPart → TestPart) (o : Option Docket) :
    (o.map (Docket.onTest f)).map (fun d => d.onTest (assembleVerdict p d)) =
      o.map (fun d => d.onTest (fun x => assembleVerdict p d (f x))) := by
  have same : ∀ d x, assembleVerdict p (d.onTest f) x = assembleVerdict p d x := fun _ _ => rfl
  cases o with
  | none => rfl
  | some d =>
    simp only [Option.map_some, Docket.onTest, Option.map_map, Function.comp_def] at *
    simp only [same]

/-- The entry of SAFE outside a test (R108). -/
theorem enterSafe_outside (h : HeadState) (s : State) (at' : s.tsq.state = some h) (out : h ≠ .safe)
    (idle : h.inTest = false) :
    enterSafe s = { s with tsq := { s.tsq with
      state := some .safe, phase := none, safeFrom := none, returnState := some h, gateOpen := false
      doneUrgent := false } } := by
  cases h <;> simp_all [enterSafe, State.withTsq]

/-- The entry of SAFE during a test (R106). -/
theorem enterSafe_test (h : HeadState) (s : State) (at' : s.tsq.state = some h) (test : h.inTest = true) :
    let t := enterSafe s
    t.tsq.state = some .safe ∧ t.tsq.phase = none ∧ t.tsq.lidLock = s.tsq.lidLock ∧ t.tsq.safeFrom = some h ∧
    t.tsq.docket = (if h = .holding then
        s.tsq.docket.map (Docket.onTest fun x => { x with holdEnd := some s.roundStamp, holdMean := holdMean s.msu })
      else s.tsq.docket) ∧
    t.msu.window = {} ∧ t.msu.pressure = s.msu.pressure ∧ t.adm.waitAge = 0 ∧ t.adm.urgent = false ∧
    t.ilk = s.ilk ∧ t.inputs = s.inputs ∧ t.params = s.params ∧ t.outsideHead = s.outsideHead := by
  intro t
  by_cases hold : h = .holding
  · subst hold
    simp [t, enterSafe, at', test, leaveHolding, abandonPhase, onTest, State.withTsq, State.withMsu, State.withAdm,
      State.outsideHead]
  · have ne : (h == HeadState.holding) = false := by simpa using hold
    cases h <;> simp_all +decide [t, enterSafe, abandonPhase, State.withTsq, State.withMsu, State.withAdm, State.outsideHead]

/-- Everything that one condition does which latches outside SAFE with no response in force: it takes the head to SAFE,
or, a VENT of a test with the pressure already down, completes at once (R145 to R149). The two edge inputs may have been
disarmed meanwhile. -/
theorem respond_one (c : Cause) (h : HeadState) (s : State) (at' : s.tsq.state = some h) (out : h ≠ .safe)
    (free : s.ilk.inForce = none) (clear : s.ilk.latched = []) (takes : s.latches c = true) (a b : Bool) :
    let t := (latchOne c s).withIlk { (latchOne c s).ilk with pswArmed := a, abortArmed := b }
    (c.isTrip = true ∨ s.vented = false → EntersSafe c h s (respond t)) ∧
    (c.isTrip = false → s.vented = true → h.inTest = true → VentedAtOnce c h s (respond t)) := by
  intro t
  have under : s.testUnderWay = h.inTest := by cases h <;> simp_all [State.testUnderWay]
  have et : t = { s with
      ilk := { s.ilk with
        latched := [c], disarmed := s.ilk.disarmed ++ [c], pswArmed := a, abortArmed := b }
      tsq := { s.tsq with
        docket := if h.inTest then s.tsq.docket.map (Docket.onTest (·.append c)) else s.tsq.docket } } := by
    simp only [t, State.withIlk]
    rw [latchOne_taken c s takes, under, clear]
    rfl
  have one : respond t = chooseNext (enterSafe t) := by
    have top : t.topLatched = some c := topLatched_one c _ (by rw [et])
    have none' : t.ilk.inForce = none := by rw [et]; exact free
    simp [respond, top, none']
  have ts : t.tsq.state = some h := by rw [et]; exact at'
  rw [one]
  cases ht : h.inTest
  · have e := enterSafe_outside h t ts out ht
    have top : (enterSafe t).topLatched = some c := topLatched_one c _ (by rw [e, et])
    have down : (enterSafe t).vented = s.vented := by rw [e, et]; rfl
    refine ⟨fun hv => ?_, fun _ _ no => nomatch no⟩
    have stays : (c.isTrip || !s.vented) = true := by rcases hv with hv | hv <;> simp [hv]
    unfold chooseNext
    simp only [top, down, stays, if_true]
    rw [e, et]
    unfold EntersSafe
    simp [State.withIlk, ht, State.newCounter, State.outsideHead]
  · obtain ⟨e1, e2, e3, e4, e5, e6, e7, e8, e9, e10, e11, e12, e13⟩ := enterSafe_test h t ts ht
    have dock : (enterSafe t).tsq.docket = s.tsq.docket.map (Docket.onTest (appendedAt c h s)) := by
      rw [e5, et]
      simp only [ht, if_true]
      by_cases hold : h = .holding
      · simp only [hold, if_true, Docket.map_onTest]; rfl
      · have same : appendedAt c h s = fun x => x.append c := by funext x; simp [appendedAt, hold]
        simp only [hold, if_false, same]
    generalize enterSafe t = z at *
    have out' : z.outsideHead = s.outsideHead := by rw [e13, et]; rfl
    have lid : z.tsq.lidLock = s.tsq.lidLock := by rw [e3, et]
    have top : z.topLatched = some c := topLatched_one c z (by rw [e10, et])
    have down : z.vented = s.vented := by unfold State.vented; rw [e7, e12, et]
    have il : z.ilk = { s.ilk with
        latched := [c], disarmed := s.ilk.disarmed ++ [c], pswArmed := a, abortArmed := b } := by rw [e10, et]
    have pars : z.params = s.params := by rw [e12, et]
    have pins : z.inputs = s.inputs := by rw [e11, et]
    unfold chooseNext
    rw [top, down]
    refine ⟨fun hv => ?_, fun h1 h2 _ => ?_⟩
    · have stays : (c.isTrip || !s.vented) = true := by rcases hv with hv | hv <;> simp [hv]
      simp only [stays, if_true]
      unfold EntersSafe
      simp [ht, e1, e2, lid, e4, dock, e6, e8, e9, il, out', State.newCounter]
    · have goes : (c.isTrip || !s.vented) = false := by simp [h1, h2]
      simp only [goes, Bool.false_eq_true, if_false]
      have verdict : Option.map (fun d => d.onTest (assembleVerdict z.params d)) z.tsq.docket =
          s.tsq.docket.map (fun d => d.onTest (fun x => assembleVerdict s.params d (appendedAt c h s x))) := by
        rw [dock, pars]; exact Docket.assemble_onTest _ _ _
      unfold VentedAtOnce leaveSafe
      rw [← pins]
      cases hs : z.inputs.seat <;>
        simp only [e4, e6, hs, verdict, assembleSlot, State.withTsq, State.withIlk, enterDone, enterDraining,
          enterLocked, enterPhase, Bool.false_eq_true, if_false, if_true, true_and, and_true] <;>
        exact out'

/-- The same of a condition raised by an event. -/
theorem raise_one (c : Cause) (h : HeadState) (s : State) (at' : s.tsq.state = some h) (out : h ≠ .safe)
    (free : s.ilk.inForce = none) (clear : s.ilk.latched = []) (takes : s.latches c = true) :
    (c.isTrip = true ∨ s.vented = false → EntersSafe c h s (raise [c] s)) ∧
    (c.isTrip = false → s.vented = true → h.inTest = true → VentedAtOnce c h s (raise [c] s)) := by
  have k := respond_one c h s at' out free clear takes s.ilk.pswArmed s.ilk.abortArmed
  have e : (latchOne c s).withIlk { (latchOne c s).ilk with
      pswArmed := s.ilk.pswArmed, abortArmed := s.ilk.abortArmed } = latchOne c s := by
    rw [latchOne_taken c s takes]; rfl
  simp only [e] at k
  exact k

/-! ### Several conditions in one event -/

theorem testUnderWay_at (h : HeadState) (s : State) (at' : s.tsq.state = some h) (out : h ≠ .safe) :
    s.testUnderWay = h.inTest := by
  unfold State.testUnderWay; rw [at']; cases h <;> first | rfl | exact absurd rfl out

theorem condActive_at (c : Cause) (h : HeadState) (s : State) (at' : s.tsq.state = some h) (out : h ≠ .safe) :
    s.condActive c = c.activeIn h := by
  unfold State.condActive; rw [at']; cases h <;> first | rfl | exact absurd rfl out

theorem condArmed_of (c : Cause) (s : State) (psw : c ≠ .pressureSwitch) (abort : c ≠ .aborted)
    (armed : c ∉ s.ilk.disarmed) : s.condArmed c = true := by
  cases c <;> first | exact absurd rfl psw | exact absurd rfl abort | simp [State.condArmed, armed]

/-- Causes of a test that may all latch do, in their order (R145, R146). -/
theorem latchAll_taken (h : HeadState) (cs : List Cause) (nd : cs.Nodup) :
    ∀ s : State, s.tsq.state = some h → h ≠ .safe → h.inTest = true → s.ilk.inForce = none →
    (∀ c ∈ cs, c ∉ s.ilk.latched ∧ c.activeIn h = true ∧ c ∉ s.ilk.disarmed ∧ c ≠ .pressureSwitch ∧ c ≠ .aborted) →
    latchAll cs s = { s with
      ilk := { s.ilk with latched := s.ilk.latched ++ cs, disarmed := s.ilk.disarmed ++ cs }
      tsq := { s.tsq with docket := s.tsq.docket.map (Docket.onTest fun x => cs.foldl TestPart.append x) } } := by
  induction cs with
  | nil =>
    intro s _ _ _ _ _
    have same : s.tsq.docket.map (Docket.onTest fun x => x) = s.tsq.docket := by
      cases s.tsq.docket <;> simp [Docket.onTest]
    simp [latchAll, same]
  | cons c cs ih =>
    intro s at' out tst free ok
    obtain ⟨k1, k2, k3, k4, k5⟩ := ok c (by simp)
    have lat : s.latches c = true := by
      simp [State.latches, condActive_at c h s at' out, k2, condArmed_of c s k4 k5 k3, k1, free]
    have step : latchAll (c :: cs) s = latchAll cs (latchOne c s) := rfl
    obtain ⟨n1, n2⟩ := List.nodup_cons.mp nd
    have e' := latchOne_taken c s lat
    rw [testUnderWay_at h s at' out, tst] at e'
    rw [step, ih n2 (latchOne c s) (by rw [e']; exact at') out tst (by rw [e']; exact free)]
    · rw [e']
      simp only [if_true, Docket.map_onTest, List.append_assoc, List.cons_append, List.nil_append]
      rfl
    · intro e he
      obtain ⟨j1, j2, j3, j4, j5⟩ := ok e (by simp [he])
      have ne : e ≠ c := fun x => n1 (x ▸ he)
      rw [e']
      exact ⟨by simp [j1, ne], j2, by simp [j3, ne], j4, j5⟩

/-- Causes of a test that may all latch, raised in one event: the one of lowest code is taken into force, or, all of them
VENTs with the pressure already down, they complete at once (R145 to R151). -/
theorem raise_many (h : HeadState) (top : Cause) (cs : List Cause) (s : State) (nd : cs.Nodup)
    (at' : s.tsq.state = some h) (out : h ≠ .safe) (tst : h.inTest = true) (free : s.ilk.inForce = none) (clear : s.ilk.latched = [])
    (ok : ∀ c ∈ cs, c.activeIn h = true ∧ c ∉ s.ilk.disarmed ∧ c ≠ .pressureSwitch ∧ c ≠ .aborted)
    (mem : top ∈ cs) (least : ∀ c ∈ cs, top.code ≤ c.code) :
    let listed := fun x : TestPart =>
      if h = .holding then { cs.foldl TestPart.append x with holdEnd := some s.roundStamp, holdMean := holdMean s.msu }
      else cs.foldl TestPart.append x
    let t := raise cs s
    (top.isTrip = true ∨ s.vented = false →
      t.tsq.state = some .safe ∧ t.ilk.inForce = some top ∧ t.ilk.latched = cs ∧ t.ilk.timer.ticks = 0 ∧
      t.tsq.safeFrom = some h ∧ t.msu.window = {} ∧ t.tsq.docket = s.tsq.docket.map (Docket.onTest listed)) ∧
    (top.isTrip = false → s.vented = true →
      t.tsq.state = (if s.inputs.seat then some .draining else some .done) ∧ t.ilk.inForce = none ∧ t.ilk.latched = [] ∧
      t.tsq.docket = s.tsq.docket.map fun d => d.onTest fun x => assembleVerdict s.params d (listed x)) := by
  intro listed t
  have ea := latchAll_taken h cs nd s at' out tst free (fun c hc => ⟨by simp [clear], ok c hc⟩)
  rw [clear, List.nil_append] at ea
  generalize hm : latchAll cs s = m at ea
  have mt : m.topLatched = some top := (m.topLatched_iff top).mpr (by rw [ea]; exact ⟨mem, least⟩)
  have mf : m.ilk.inForce = none := by rw [ea]; exact free
  have one : t = chooseNext (enterSafe m) := by
    show respond (latchAll cs s) = _
    rw [hm]; simp [respond, mt, mf]
  have ms : m.tsq.state = some h := by rw [ea]; exact at'
  obtain ⟨e1, e2, e3, e4, e5, e6, e7, e8, e9, e10, e11, e12, e13⟩ := enterSafe_test h m ms tst
  have dock : (enterSafe m).tsq.docket = s.tsq.docket.map (Docket.onTest listed) := by
    rw [e5, ea]
    by_cases hold : h = .holding
    · simp only [hold, if_true, Docket.map_onTest, listed]; rfl
    · simp only [hold, if_false, listed]
  rw [one]
  generalize enterSafe m = z at *
  have zt : z.topLatched = some top := (z.topLatched_iff top).mpr (by rw [e10, ea]; exact ⟨mem, least⟩)
  have zv : z.vented = s.vented := by unfold State.vented; rw [e7, e12, ea]
  have zl : z.ilk.latched = cs := by rw [e10, ea]
  have zp : z.params = s.params := by rw [e12, ea]
  have zi : z.inputs = s.inputs := by rw [e11, ea]
  unfold chooseNext
  rw [zt, zv]
  refine ⟨fun hv => ?_, fun h1 h2 => ?_⟩
  · have stays : (top.isTrip || !s.vented) = true := by rcases hv with hv | hv <;> simp [hv]
    simp [stays, State.withIlk, State.newCounter, e1, zl, e4, e6, dock]
  · have goes : (top.isTrip || !s.vented) = false := by simp [h1, h2]
    simp only [goes, Bool.false_eq_true, if_false]
    have verdict : Option.map (fun d => d.onTest (assembleVerdict z.params d)) z.tsq.docket =
        s.tsq.docket.map (fun d => d.onTest fun x => assembleVerdict s.params d (listed x)) := by
      rw [dock, zp]; exact Docket.assemble_onTest _ _ _
    unfold leaveSafe
    rw [← zi]
    cases hs : z.inputs.seat <;>
      simp [e4, hs, verdict, assembleSlot, State.withTsq, State.withIlk, enterDone, enterDraining, enterLocked,
        enterPhase]

/-! ### The sample of a tick -/

theorem atRail_iff (c : BitVec 16) : atRail c = true ↔ c.toNat ≤ 15 ∨ 65520 ≤ c.toNat := by
  simp [atRail]; tauto

/-- The reading of a tick with no response in force: the phase timer advances, inputs, rails and pressure are read, and
a condition stays disarmed while its cause is present, the expiry of this tick among them (R91, R125, R126, R145). -/
theorem tickRead_eq (p : Pins) (x : Sample) (s : State) (free : s.ilk.inForce = none) :
    tickRead p x s = { s with
      inputs := p
      tsq := { s.tsq with phase := s.tsq.phase.map TickCounter.advance, tickOpen := false, peakOwed := false }
      ilk := { s.ilk with
        pswArmed := s.ilk.pswArmed || !p.psw, abortArmed := s.ilk.abortArmed || !p.abort
        clearArmed := s.ilk.clearArmed || !p.clear
        expired := none
        disarmed := s.ilk.disarmed.filter fun c => decide
          ((c = .sensorRange ∧ (atRail x.level = true ∨ atRail x.press = true ∨ atRail x.temp = true)) ∨
            (c = .estop ∧ p.estop = true) ∨ (c = .lidOpen ∧ p.lidClosed = false) ∨
            (c = .lineSilence ∧ s.lif.lineSilent = true) ∨
            ((c = .fillTimeout ∨ c = .rampTimeout) ∧ s.ilk.expired = some c)) }
      msu := { s.msu with
        levelRail := atRail x.level, pressRail := atRail x.press, tempRail := atRail x.temp
        pressure := if atRail x.press then none else some (convertPressure s.params x.press) } } := by
  unfold tickRead rearm readChannels advanceTimers senseInputs
  simp only [State.withTsq, State.withIlk, State.withMsu, State.withInputs, free, Option.isSome_none,
    Bool.false_eq_true, if_false]
  congr 2
  apply List.filter_congr
  intro c _
  rw [Bool.eq_iff_iff]
  cases c <;> simp [State.causePresent, State.anyRail, or_assoc]

/-- The sequencer and the channels at the reading of a tick, whatever response is in force (R91, R125, R126). -/
theorem tickRead_parts (p : Pins) (x : Sample) (s : State) :
    (tickRead p x s).tsq =
      { s.tsq with phase := s.tsq.phase.map TickCounter.advance, tickOpen := false, peakOwed := false } ∧
    (tickRead p x s).msu = { s.msu with
      levelRail := atRail x.level, pressRail := atRail x.press, tempRail := atRail x.temp
      pressure := if atRail x.press then none else some (convertPressure s.params x.press) } := by
  unfold tickRead rearm readChannels advanceTimers senseInputs
  cases h : s.ilk.inForce <;> simp [h]

/-- The reading of a tick does not depend on the peak, nor on a sample owed to it. -/
theorem tickRead_raisePeak (p : Pins) (x : Sample) (q : Nat) (s : State) :
    tickRead p x (raisePeak q s) = raisePeak q (tickRead p x s) := by
  unfold tickRead rearm readChannels advanceTimers senseInputs raisePeak onTest
  cases h : s.ilk.inForce <;> simp only [State.withTsq, State.withIlk, State.withMsu, State.withInputs, h] <;> rfl

theorem tickRead_unowed (p : Pins) (x : Sample) (s : State) :
    tickRead p x (s.withTsq { s.tsq with peakOwed := false }) = tickRead p x s := by
  unfold tickRead rearm readChannels advanceTimers senseInputs
  cases h : s.ilk.inForce <;> simp only [State.withTsq, State.withIlk, State.withMsu, State.withInputs, h]

/-- Out of the ramp, the hold and the vent a pressure serves an owed peak, or nothing (R136; log 10). -/
theorem usePressure_left (owed : Bool) (s : State)
    (left : s.tsq.state ∉ [some .ramping, some .holding, some .venting]) :
    usePressure owed s = match s.msu.pressure with
      | some q => if owed then raisePeak q s else s
      | none => s := by
  unfold usePressure
  cases s.msu.pressure with
  | none => rfl
  | some q =>
    cases h : s.tsq.state with
    | none => rfl
    | some k => cases k <;> simp_all

/-- The stages of a sample: the tick is read, the pressure is used, the reports are raised, the window is fed (log 9). -/
theorem headSample_stages (p : Pins) (x : Sample) (s u : State) (used : usePressure s.tsq.peakOwed (tickRead p x s) = u) :
    headSample p x s = windowStage s.numberedPhase x (raise (sampleReports u) u) := by
  rw [← used]; rfl

/-- A pressure of no use to the ramp, the hold, the vent or the peak changes nothing (R135 to R137). -/
theorem usePressure_unused (owed : Bool) (h : HeadState) (s : State) (at' : s.tsq.state = some h)
    (un : s.msu.pressure = none ∨ (owed = false ∧ h ≠ .ramping ∧ h ≠ .holding ∧
      (h = .venting → ∀ q, s.msu.pressure = some q → s.params.ventDone ≤ q))) :
    usePressure owed s = s := by
  unfold usePressure
  rw [at']
  rcases un with un | ⟨rfl, h1, h2, h3⟩
  · rw [un]
  · cases hp : s.msu.pressure with
    | none => rfl
    | some q => cases h <;> simp_all

/-- With no pressure of the hold to check, a rail is all that a sample reports (R125, R135). -/
theorem sampleReports_quiet (s : State) (q : s.headIs .holding = false ∨ s.msu.pressure = none) :
    sampleReports s = if s.anyRail then [.sensorRange] else [] := by
  unfold sampleReports
  rcases q with q | q <;> rw [q] <;> simp

/-- A head in SAFE feeds no window (R133). -/
theorem windowStage_safe (phase : Option HeadState) (x : Sample) (s : State) (safe : s.tsq.state = some .safe)
    (other : phase ≠ some .safe) : windowStage phase x s = s := by
  unfold windowStage
  cases phase with
  | none => rfl
  | some k =>
    have ne : HeadState.safe ≠ k := fun e => other (by rw [← e])
    simp [State.headIs, safe, ne]

theorem numberedPhase_ne_safe (s : State) : s.numberedPhase ≠ some .safe := by
  unfold State.numberedPhase
  split
  · split
    · rename_i h _ _ _ hh; intro e; cases e; simp [HeadState.reads] at hh
    · simp
  · simp

/-! ### What latching and responding leave of the arming -/

@[simp] theorem onTest_ilk (f : TestPart → TestPart) (s : State) : (onTest f s).ilk = s.ilk := rfl
@[simp] theorem assembleSlot_ilk (s : State) : (assembleSlot s).ilk = s.ilk := by simp [assembleSlot]
@[simp] theorem enterSafe_ilk (s : State) : (enterSafe s).ilk = s.ilk := by
  unfold enterSafe leaveHolding abandonPhase; (try dsimp only); (repeat' split) <;> first | (simp; done) | rfl
@[simp] theorem enterIdle_ilk (s : State) : (enterIdle s).ilk = s.ilk := by rw [(enterIdle_kept s).1]
@[simp] theorem leaveSafe_ilk (s : State) : (leaveSafe s).ilk = s.ilk := by
  unfold leaveSafe reenter enterDraining enterLocked enterDone enterUnloading openGate enterOos enterPhase
  (try dsimp only); (repeat' split) <;> first | (simp; done) | rfl
@[simp] theorem usePressure_ilk (owed : Bool) (s : State) : (usePressure owed s).ilk = s.ilk := by
  unfold usePressure raisePeak enterHolding addHold enterReading enterLocked enterPhase
  (try dsimp only); (repeat' split) <;> first | (simp; done) | rfl

/-- Choosing a response changes which is in force, its timer and the latch, nothing else of the unit (R147, R151). -/
theorem chooseNext_ilk (s : State) :
    (chooseNext s).ilk = { s.ilk with
      inForce := (chooseNext s).ilk.inForce, timer := (chooseNext s).ilk.timer, latched := (chooseNext s).ilk.latched } := by
  unfold chooseNext; (repeat' split) <;> simp [State.withIlk]

/-- Nothing latched ranks above the response in force, whatever is chosen (R147, R150, R151). -/
theorem chooseNext_top (s : State) :
    ∀ c ∈ (chooseNext s).ilk.latched, ∃ f, (chooseNext s).ilk.inForce = some f ∧ f.code ≤ c.code := by
  unfold chooseNext
  cases h : s.topLatched with
  | none =>
    intro c hc
    have : s.ilk.latched = [] := by
      rw [List.eq_nil_iff_forall_not_mem]
      intro x hx
      exact absurd (List.find?_eq_none.mp h x x.mem_all) (by simp [hx])
    simp [State.withIlk, this] at hc
  | some t =>
    dsimp only
    split
    · intro c hc
      exact ⟨t, rfl, ((s.topLatched_iff t).mp h).2 c hc⟩
    · simp [State.withIlk]

/-- A response changes nothing of the interlock unit but the one in force, its timer and the latch (R147, R150). -/
theorem respond_ilk (s : State) :
    (respond s).ilk = { s.ilk with
      inForce := (respond s).ilk.inForce, timer := (respond s).ilk.timer, latched := (respond s).ilk.latched } := by
  unfold respond
  (repeat' split) <;> first | rfl | rw [chooseNext_ilk] <;> simp

/-- Nothing latched ranks above the response in force once the latch has been acted on (R147, R150). -/
theorem respond_top (s : State) :
    ∀ c ∈ (respond s).ilk.latched, ∃ f, (respond s).ilk.inForce = some f ∧ f.code ≤ c.code := by
  unfold respond
  cases h : s.topLatched with
  | none =>
    intro c hc
    exact absurd (List.find?_eq_none.mp h c c.mem_all) (by simpa using hc)
  | some t =>
    dsimp only
    cases hf : s.ilk.inForce with
    | none => exact chooseNext_top _
    | some f =>
      dsimp only
      split
      · exact chooseNext_top _
      · intro c hc
        have := ((s.topLatched_iff t).mp h).2 c hc
        exact ⟨f, hf, by omega⟩

/-- A response in force above everything latched goes on (R150). -/
theorem respond_stays (s : State) (top : ∀ c ∈ s.ilk.latched, ∃ f, s.ilk.inForce = some f ∧ f.code ≤ c.code) :
    respond s = s := by
  unfold respond
  cases h : s.topLatched with
  | none => rfl
  | some t =>
    obtain ⟨f, hf, le⟩ := top t ((s.topLatched_iff t).mp h).1
    simp [hf, Nat.not_lt.mpr le]

/-- Latching disarms what it latches and arms nothing (R145). -/
theorem latchAll_ilk (cs : List Cause) (s : State) :
    (latchAll cs s).ilk = { s.ilk with
      latched := (latchAll cs s).ilk.latched, disarmed := (latchAll cs s).ilk.disarmed } ∧
    ∀ c, c ∈ (latchAll cs s).ilk.disarmed → c ∈ s.ilk.disarmed ∨ c ∈ cs := by
  induction cs generalizing s with
  | nil => exact ⟨rfl, fun c h => .inl h⟩
  | cons d cs ih =>
    have one : (latchOne d s).ilk = { s.ilk with
          latched := (latchOne d s).ilk.latched, disarmed := (latchOne d s).ilk.disarmed } ∧
        ∀ c, c ∈ (latchOne d s).ilk.disarmed → c ∈ s.ilk.disarmed ∨ c = d := by
      unfold latchOne
      (repeat' split) <;> simp +contextual [State.withIlk]
    obtain ⟨e, m⟩ := ih (latchOne d s)
    refine ⟨?_, fun c h => ?_⟩
    · show (latchAll cs (latchOne d s)).ilk = _
      rw [e, one.1]; rfl
    · rcases m c h with h | h
      · rcases one.2 c h with h | h
        · exact .inl h
        · exact .inr (by simp [h])
      · exact .inr (by simp [h])

/-- What stands disarmed stays so while causes are latched (R145). -/
theorem latchAll_disarmed (cs : List Cause) (s : State) (c : Cause) (h : c ∈ s.ilk.disarmed) :
    c ∈ (latchAll cs s).ilk.disarmed := by
  induction cs generalizing s with
  | nil => exact h
  | cons d cs ih =>
    refine ih (latchOne d s) ?_
    unfold latchOne
    (repeat' split) <;> simp [State.withIlk, h]

/-- Between `i` and `j` nothing but the latch, the response and the arming of conditions changed, and only conditions of
`cs` were disarmed: what raising causes leaves of the interlock unit (R145 to R147). -/
def Ilk.RaisedOnly (cs : List Cause) (i j : Ilk) : Prop :=
  j = { i with latched := j.latched, disarmed := j.disarmed, inForce := j.inForce, timer := j.timer } ∧
  (∀ c ∈ i.disarmed, c ∈ j.disarmed) ∧ (∀ c ∈ j.disarmed, c ∈ i.disarmed ∨ c ∈ cs)

theorem Ilk.RaisedOnly.refl (cs : List Cause) (i : Ilk) : i.RaisedOnly cs i :=
  ⟨rfl, fun _ h => h, fun _ h => .inl h⟩

theorem Ilk.RaisedOnly.mono {cs ds : List Cause} {i j : Ilk} (sub : ∀ c ∈ cs, c ∈ ds) (h : i.RaisedOnly cs j) :
    i.RaisedOnly ds j := ⟨h.1, h.2.1, fun c m => (h.2.2 c m).imp_right (sub c)⟩

theorem Ilk.RaisedOnly.trans {cs : List Cause} {i j k : Ilk} (h : i.RaisedOnly cs j) (g : j.RaisedOnly cs k) :
    i.RaisedOnly cs k :=
  ⟨by rw [g.1, h.1], fun c m => g.2.1 c (h.2.1 c m), fun c m => (g.2.2 c m).elim (h.2.2 c) .inr⟩

/-- Causes that arise in one event (R145 to R147). -/
theorem raise_raisedOnly (cs : List Cause) (s : State) : s.ilk.RaisedOnly cs (raise cs s).ilk := by
  let t := raise cs s
  have e : t.ilk = _ := respond_ilk (latchAll cs s)
  have d : t.ilk.disarmed = (latchAll cs s).ilk.disarmed := by rw [e]
  refine ⟨?_, fun c h => ?_, fun c h => ?_⟩
  · conv_lhs => rw [e, (latchAll_ilk cs s).1]
    rw [d]
    rfl
  · rw [d]; exact latchAll_disarmed cs s c h
  · rw [d] at h; exact (latchAll_ilk cs s).2 c h

@[simp] theorem takeReading_ilk (h : HeadState) (n m : Nat) (s : State) : (takeReading h n m s).ilk = s.ilk := by
  cases h <;> simp [takeReading, zeroReading, totalReading, permanentReading, leaveHolding, abandonPhase, enterDraining,
    enterLocked, enterPhase]

/-- The reports of a window are UNSETTLED, CREEP and TEMP_RANGE (R131, R132). -/
theorem judgeWindow_raisedOnly (h : HeadState) (w : Window) (s : State) :
    s.ilk.RaisedOnly [.unsettled, .creep, .tempRange] (judgeWindow h w s).ilk := by
  have raised : ∀ d ∈ [Cause.unsettled, .creep, .tempRange], ∀ v,
      s.ilk.RaisedOnly [.unsettled, .creep, .tempRange] (raise [d] (withWindow v s)).ilk := fun d m v =>
    (raise_raisedOnly [d] (withWindow v s)).mono fun c hc => by rw [List.mem_singleton.mp hc]; exact m
  unfold judgeWindow
  dsimp only
  split
  · split
    · rw [takeReading_ilk]; exact .refl ..
    · exact raised _ (by simp) _
  · split
    · exact raised _ (by unfold budgetReport; split <;> simp) _
    · exact .refl ..

theorem windowStage_raisedOnly (phase : Option HeadState) (x : Sample) (s : State) :
    s.ilk.RaisedOnly [.unsettled, .creep, .tempRange] (windowStage phase x s).ilk := by
  unfold windowStage useWindow
  dsimp only
  (repeat' split) <;> first | exact judgeWindow_raisedOnly .. | exact .refl ..

@[simp] theorem usePressure_anyRail (owed : Bool) (s : State) : (usePressure owed s).anyRail = s.anyRail := by
  unfold usePressure raisePeak enterHolding addHold enterReading enterLocked enterPhase State.anyRail
  dsimp only
  (repeat' split) <;> simp [onTest]

theorem mem_holdReports (l : Limits) (q : Nat) (c : Cause) (h : c ∈ holdReports l q) :
    c ∈ [.overpressure, .leakDrop, .overband] := by
  unfold holdReports at h
  simp only [List.mem_append] at h
  rcases h with (h | h) | h <;> split at h <;> simp_all

/-- The reports of a sample: a rail, or a hold check (R125, R135). -/
theorem mem_sampleReports (s : State) (c : Cause) (h : c ∈ sampleReports s) :
    (c = .sensorRange ∧ s.anyRail = true) ∨ c ∈ [.overpressure, .leakDrop, .overband] := by
  unfold sampleReports at h
  rcases List.mem_append.mp h with h | h
  · left; split at h <;> simp_all
  · right; split at h
    · exact mem_holdReports _ _ c h
    · simp at h

/-- What a sample brings to the interlock unit once the tick is read: its reports, of which SENSOR_RANGE needs a rail
(R125, R131, R132, R135). -/
theorem headSample_raisedOnly (p : Pins) (x : Sample) (s : State) :
    (tickRead p x s).ilk.RaisedOnly
      ((if (tickRead p x s).anyRail then [.sensorRange] else []) ++
        [.overpressure, .leakDrop, .overband, .unsettled, .creep, .tempRange])
      (headSample p x s).ilk := by
  generalize hz : tickRead p x s = z
  generalize hu : usePressure s.tsq.peakOwed z = u
  have same : u.ilk = z.ilk := by rw [← hu]; exact usePressure_ilk ..
  have rails : u.anyRail = z.anyRail := by rw [← hu]; exact usePressure_anyRail ..
  rw [headSample_stages p x s u (by rw [hz, hu]), ← same]
  refine ((raise_raisedOnly _ u).mono fun c hc => ?_).trans
    ((windowStage_raisedOnly s.numberedPhase x _).mono fun c hc => ?_)
  · rcases mem_sampleReports u c hc with ⟨rfl, r⟩ | m
    · rw [← rails, r]; simp
    · refine List.mem_append_right _ ?_
      simp only [List.mem_cons, List.not_mem_nil, or_false] at m ⊢
      tauto
  · refine List.mem_append_right _ ?_
    simp only [List.mem_cons, List.not_mem_nil, or_false] at hc ⊢
    tauto

end Sys2Proof.Machine
end

