-- ==== Sys2Proof/Laws/Ops.lean ====
section
/-! SUPPORT. What each shared operation does, said once: the transmit queue, replies, entries, intake moves, the
record buffer, dispositions, link exchanges, received frames, the end of a round. -/

namespace Sys2Proof.Machine

/-! ### Transmit queue -/

theorem insertMsg_length (m : TxMsg) (q : List TxMsg) : (insertMsg m q).length = q.length + 1 := by
  induction q with
  | nil => rfl
  | cons x rest ih =>
    unfold insertMsg
    split <;> simp [ih]

theorem mem_insertMsg (m x : TxMsg) (q : List TxMsg) : x ∈ insertMsg m q ↔ x = m ∨ x ∈ q := by
  induction q with
  | nil => simp [insertMsg]
  | cons y rest ih =>
    unfold insertMsg
    split
    · simp only [List.mem_cons, ih]; tauto
    · simp only [List.mem_cons]

theorem queueMsg_taken (m : TxMsg) (s : State) (room : s.txq.length < 4) (free : s.lif.roleConflict = false) :
    queueMsg m s = { s with txq := insertMsg m s.txq } := by
  have h : s.txRoom = true := decide_eq_true room
  simp [queueMsg, h, free, State.withTxq]

theorem queueMsg_dropped (m : TxMsg) (s : State) (full : 4 ≤ s.txq.length ∨ s.lif.roleConflict = true) :
    queueMsg m s = s := by
  unfold queueMsg
  rcases full with full | conflict
  · have h : s.txRoom = false := decide_eq_false (Nat.not_lt.mpr full)
    simp [h]
  · simp [conflict]

/-! ### Rounding -/

/-- A rounded quotient lies within half a divisor of the dividend, a tie above it (R128). -/
theorem roundDivNat_near (n b : Nat) (pos : 0 < b) :
    2 * (roundDivNat n b * b) ≤ 2 * n + b ∧ 2 * n + b < 2 * (roundDivNat n b * b) + 2 * b := by
  have h1 := Nat.div_mul_le_self (2 * n + b) (2 * b)
  have h2 := Nat.lt_div_mul_add (a := 2 * n + b) (b := 2 * b) (by omega)
  unfold roundDivNat
  constructor <;> nlinarith

/-! ### The lowest address, and the share of a head -/

theorem mem_allAddrs (a : Addr) : a ∈ allAddrs := by revert a; decide

theorem allAddrs_sorted : allAddrs.Pairwise fun a b => a.toNat < b.toNat := by decide

/-- The first address found is the lowest one that meets the condition. -/
theorem find_allAddrs_iff (p : Addr → Bool) (a : Addr) :
    allAddrs.find? p = some a ↔ p a = true ∧ ∀ b : Addr, b.toNat < a.toNat → p b = false := by
  have fwd : ∀ x, allAddrs.find? p = some x → p x = true ∧ ∀ b : Addr, b.toNat < x.toNat → p b = false := by
    intro x h
    obtain ⟨hx, as, bs, split, absent⟩ := List.find?_eq_some_iff_append.mp h
    refine ⟨hx, fun b lt => ?_⟩
    have sorted := allAddrs_sorted
    rw [split, List.pairwise_append] at sorted
    have m := mem_allAddrs b
    rw [split, List.mem_append, List.mem_cons] at m
    rcases m with m | m | m
    · simpa using absent b m
    · subst m; omega
    · have := (List.pairwise_cons.mp sorted.2.1).1 b m; omega
  refine ⟨fwd a, fun ⟨ha, least⟩ => ?_⟩
  cases hf : allAddrs.find? p with
  | none => exact absurd ha (List.find?_eq_none.mp hf a (mem_allAddrs a))
  | some e =>
    obtain ⟨he, first⟩ := fwd e hf
    rcases Nat.lt_trichotomy e.toNat a.toNat with l | l | l
    · rw [least e l] at he; cases he
    · rw [BitVec.eq_of_toNat_eq l]
    · rw [first a l] at ha; cases ha

theorem find_allAddrs_none (p : Addr → Bool) : allAddrs.find? p = none ↔ ∀ a, p a = false := by
  simp [List.find?_eq_none, mem_allAddrs]

/-- The K that a TEST card carries (R114). -/
theorem State.cardK_iff (s : State) (a : Addr) (k : Nat) :
    s.cardK a = some k ↔ ∃ c x, (s.entry a).card = some c ∧ c.role = .test ∧ c.head = some x ∧ x.k = k := by
  unfold State.cardK
  cases hc : (s.entry a).card with
  | none => simp
  | some c =>
    rcases c with ⟨r, ca, cl, hd⟩
    cases r <;> cases hd <;> simp

theorem foldl_min_least (l : List Nat) (b : Nat) :
    l.foldl min b ≤ b ∧ (∀ x ∈ l, l.foldl min b ≤ x) ∧ (l.foldl min b = b ∨ l.foldl min b ∈ l) := by
  induction l generalizing b with
  | nil => simp
  | cons y l ih =>
    obtain ⟨h1, h2, h3⟩ := ih (min b y)
    simp only [List.foldl_cons, List.mem_cons]
    refine ⟨by omega, ?_, ?_⟩
    · rintro x (rfl | hx)
      · omega
      · exact h2 x hx
    · rcases h3 with h3 | h3
      · rcases Nat.le_total b y with e | e
        · left; rw [h3]; omega
        · right; left; rw [h3]; omega
      · exact Or.inr (Or.inr h3)

/-! ### Port B and the entries of INSPECT -/

theorem reply_eq (r : Reply) (s : State) :
    reply r s = { s with ports := { s.ports with waiting := repliedWith r s.ports } } := by
  by_cases h : s.ports.waiting.length < 4
  · simp [reply, repliedWith, Config.replyCap, State.withPorts, h]
  · simp [reply, repliedWith, Config.replyCap, h]

theorem terminalLine_handed (l : PortLine) (f : LineBuffer → State → State) (s : State)
    (role : s.role = some .inspect) (handed : lineHanded l = true) :
    terminalLine l f s = f (assembleLine 32 l) { s with ports := { s.ports with lineB := assembleLine 32 l } } := by
  simp [terminalLine, role, handed, State.withPorts, Config.portBCap]

/-! ### Intake moves -/

theorem Ieu.blocked_iff (u : Ieu) : u.blocked = true ↔ 8 ≤ u.infeed.length ∨ u.directFault = true := by
  unfold Ieu.blocked
  rw [Bool.or_eq_true, decide_eq_true_iff]
  rfl

theorem Ieu.toReady_eq (u : Ieu) : u.toReady = { u with state := readyOrFull u.infeed u.directFault } := by
  simp only [Ieu.toReady, readyOrFull, ← Ieu.blocked_iff]

theorem Ieu.refresh_full (u : Ieu) (full : u.state = .infeedFull) :
    u.refresh = { u with state := readyOrFull u.infeed u.directFault } := by
  simp only [Ieu.refresh, full, readyOrFull, ← Ieu.blocked_iff]
  split
  · cases u; simp_all
  · rfl

theorem Ieu.refresh_other (u : Ieu) (notFull : u.state ≠ .infeedFull) (good : u.directFault = false) :
    u.refresh = u := by
  unfold Ieu.refresh
  split <;> simp_all

/-! ### The record buffer and dispositions -/

/-- The record line of a kept card (R53, R176, R177): into the buffer, or among the waiters, where it takes the place of a
waiting line of its address (log 38). -/
theorem produceLine_card (s t : State) (a : Addr) (c : Card) (from' : s.lif.round.cardFrom = some a)
    (kept : (t.entry a).card = some c) : KeptCardLine s t (produceLine (cardLine a c) s).dsu := by
  have same : ∀ x : Waiter, (cardLine a c).sameCard x = decide (x.source = .card a) := by
    intro x
    unfold Waiter.sameCard cardLine
    cases x with
    | mk l so => cases so <;> simp [eq_comm, Bool.beq_eq_decide_eq]
  refine ⟨fun h => absurd ⟨from', kept⟩ (h a c), ?_⟩
  rintro a' c' ⟨e, k⟩
  rw [from'] at e; cases e
  rw [kept] at k; cases k
  refine ⟨fun lt => ?_, fun ge none' => ?_, fun ge one => ?_⟩
  · simp [produceLine, Config.recordCap, lt, enterBuffer, finishLine, cardLine, State.withDsu]
  · have full : ¬ s.dsu.recBuffer.length < 4 := by omega
    have new : s.dsu.recWaiters.any (cardLine a c).sameCard = false := by
      simp only [List.any_eq_false, same, decide_eq_true_eq]; exact fun x hx => none' x hx
    simp [produceLine, Config.recordCap, full, addWaiter, new, State.withDsu]; rfl
  · have full : ¬ s.dsu.recBuffer.length < 4 := by omega
    have old : s.dsu.recWaiters.any (cardLine a c).sameCard = true := by
      simp only [List.any_eq_true, same, decide_eq_true_eq]; exact one
    simp only [produceLine, Config.recordCap, full, addWaiter, old, State.withDsu, same, if_true, if_false,
      decide_eq_true_eq]
    rfl

theorem addWaiter_work (l : RecLine) (q : List Waiter) :
    addWaiter { line := l, source := .work } q = q ++ [{ line := l, source := .work }] := by
  simp [addWaiter, Waiter.sameCard]

theorem addWaiter_queued (l : RecLine) (m n : Text) (q : List Waiter) :
    addWaiter { line := l, source := .queued m n } q = q ++ [{ line := l, source := .queued m n }] := by
  simp [addWaiter, Waiter.sameCard]

/-- A return without a cylinder, of a new identity, is finished as MISSING at its accept: its line enters the buffer and
its note is queued, or the line waits and the docket keeps its place (R161, R162, R176, R178). -/
theorem returnAccepted_missing (d : Docket) (s : State) (nc : d.noCylinder = true) (rc : s.lif.roleConflict = false)
    (new : (s.dsu.arrival.any fun a => a.docket.mfr == d.mfr && a.docket.serial == d.serial) = false) :
    let lost := { d with disposal := some { disposition := .missing, cause := some .missing } }
    let note : Note := { hash := d.hash, disposition := .missing, invalid := false, tag := d.tag.getD 0 }
    let msg : TxMsg := { kind := .verdictNote, dest := 0xFF, body := noteBody note }
    (s.dsu.recBuffer.length < 4 → returnAccepted d s =
          { s with
            dsu := { s.dsu with call := none, recBuffer := s.dsu.recBuffer ++ [.docket lost] }
            txq := if s.txq.length < 4 then insertMsg msg s.txq else s.txq }) ∧
    (4 ≤ s.dsu.recBuffer.length → returnAccepted d s =
          { s with
            dsu := { s.dsu with
              call := none
              arrival := s.dsu.arrival ++ [{ docket := lost, missing := true }]
              recWaiters := s.dsu.recWaiters ++
                [{ line := .docket lost, source := .queued d.mfr d.serial }] } }) := by
  intro lost note msg
  have hset : ∀ x y : Arrival, (s.dsu.arrival ++ [x]).set s.dsu.arrival.length y = s.dsu.arrival ++ [y] := by
    intro x y; simp
  have her : ∀ y : Arrival, y.docket.mfr = d.mfr → y.docket.serial = d.serial →
     (s.dsu.arrival ++ [y]).eraseP (fun a => a.docket.sameIdentity d.mfr d.serial) = s.dsu.arrival := by
    intro y h1 h2
    rw [List.eraseP_append_right]
    · simp [Docket.sameIdentity, h1, h2]
    · intro b hb
      have := List.any_eq_false.mp new b hb
      simpa [Docket.sameIdentity] using this
  constructor <;> intro h
  · simp only [returnAccepted, nc, if_true, addArrival, finishMissing, State.withDsu]
    simp only [List.getElem?_append_right (Nat.le_refl _), Nat.sub_self, List.getElem?_cons_zero]
    simp only [produceLine, Config.recordCap, h, if_true, State.withDsu, enterBuffer, finishLine, hset, Arrival.lost]
    rw [her]
    · by_cases q : s.txq.length < 4
      · unfold queueNote
        refine Eq.trans (queueMsg_taken _ _ ?_ ?_) ?_
        · exact q
        · exact rc
        · rw [if_pos q]; rfl
      · unfold queueNote
        refine Eq.trans (queueMsg_dropped _ _ ?_) ?_
        · exact .inl (Nat.le_of_not_lt q)
        · rw [if_neg q]
    · rfl
    · rfl
  · simp only [returnAccepted, nc, if_true, addArrival, finishMissing, State.withDsu]
    simp only [List.getElem?_append_right (Nat.le_refl _), Nat.sub_self, List.getElem?_cons_zero]
    simp only [produceLine, Config.recordCap, Nat.not_lt.mpr h, if_false, State.withDsu, hset, Arrival.lost, addWaiter_queued]
    rfl

/-- The note of a finished docket takes its place in the transmit queue, or is dropped (R46, R54, R178). -/
theorem queueNote_noted (d : Docket) (p : DisposalPart) (s : State) (has : d.disposal = some p)
    (free : s.lif.roleConflict = false) : queueNote d s = { s with txq := notedQueue d p s } := by
  unfold queueNote notedQueue noteOf
  rw [has]
  by_cases h : s.txq.length < 4
  · exact (queueMsg_taken _ s h free).trans (congrArg s.withTxq (if_pos h).symm)
  · rw [queueMsg_dropped _ s (Or.inl (by omega)), if_neg h]

/-- Everything that deciding a disposition does, for a cylinder that has not left. -/
theorem settle_settled (d : Docket) (disp : Disposition) (c : Option Cause) (lane : BitVec 2) (s : State)
    (work : s.dsu.workDocket = some d) (free : s.lif.roleConflict = false) (there : s.dsu.inPhase .gone = false) :
    Settled d disp c lane s (settle disp c lane s) := by
  unfold Settled settle
  simp only [work]
  cases hw : s.dsu.work with
  | none => simp [Dsu.workDocket, hw] at work
  | some w =>
    have hp : (w.phase == ActionPhase.gone) = false := by simpa [Dsu.inPhase, hw] using there
    refine ⟨?_, ?_⟩
    · intro hl
      have hr : s.dsu.recBuffer.length < Config.recordCap := hl
      have hc : Config.txCap = 4 := rfl
      simp [enterLane, produceLine, enterBuffer, finishLine, State.withDsu, hr, queueNote, queueMsg, State.txRoom,
        free, noteOf, Work.discarded, hp, setPhase, hc]
      split <;> split <;> simp_all [State.withTxq]
    · intro hl
      have hr : ¬ s.dsu.recBuffer.length < Config.recordCap := by simpa [Config.recordCap] using hl
      simp [enterLane, produceLine, State.withDsu, hr, addWaiter_work, setPhase]

/-- Everything that a marking fault does. -/
theorem markFault_settled (d : Docket) (c : Cause) (s : State) (work : s.dsu.workDocket = some d)
    (free : s.lif.roleConflict = false) (there : s.dsu.inPhase .gone = false) :
    Settled d .held (some c) 3 { s with dsu := { s.dsu with strike := .stopped, halt := some c } } (markFault c s) := by
  have h := settle_settled d .held (some c) 3 { s with dsu := { s.dsu with strike := .stopped } } work free there
  unfold Settled at *
  unfold markFault
  refine ⟨?_, ?_⟩
  · intro hl; have h2 := h.1 hl; simp only [State.withDsu, laneHold]; rw [h2]
  · intro hl; have h2 := h.2 hl; simp only [State.withDsu, laneHold]; rw [h2]

/-! ### Link exchanges -/

theorem exchange_silent (cmd : BitVec 24) (next : Nat) (f : Except Cause (BitVec 24) → State → State) (s : State) :
    exchange cmd next .silent f s = exchange cmd next (.word cmd true) f s := rfl

theorem exchange_good (cmd w : BitVec 24) (b : Bool) (next : Nat) (f : Except Cause (BitVec 24) → State → State)
    (s : State) (good : replyFault cmd w b = none) :
    exchange cmd next (.word w b) f s =
      f (.ok w) { s with dsu := { s.dsu with linkSent := some cmd, linkSeq := next, linkReg := w } } := by
  simp only [exchange, good, State.withDsu]

theorem exchange_bad (cmd w : BitVec 24) (b : Bool) (next : Nat) (f : Except Cause (BitVec 24) → State → State)
    (s : State) (c : Cause) (bad : replyFault cmd w b = some c) :
    exchange cmd next (.word w b) f s =
      f (.error c) { s with dsu := { s.dsu with linkSent := some cmd, linkSeq := next, linkReg := w } } := by
  simp only [exchange, bad, State.withDsu]

/-! ### Received frames and the end of a round -/

/-- A receiver that stops reading holds nothing of the frame and leaves its window (R40, R42). -/
theorem receive_cut (k : MsgKind) (f : Frame) (take : State → State) (s : State) (can : s.canReceive f = true)
    (cut : keyKind f.key ≠ some k ∨ 60 < f.len.toNat) : receive k f take s = leaveWindow (keyRead f s) := by
  have h : frameCut k f = true := by
    unfold frameCut
    rcases cut with h | h <;> simp [h]
  simp [receive, can, h]

/-- A frame that fails its length, its CRC or its kind's range is held and not acted on (R42, R43). -/
theorem receive_failed (k : MsgKind) (f : Frame) (take : State → State) (s : State) (can : s.canReceive f = true)
    (key : keyKind f.key = some k) (short : f.len.toNat ≤ 60)
    (failed : f.body.length ≠ f.len.toNat ∨ frameCrc f.key f.dest f.len f.body ≠ f.crc ∨
      k.lengthOk f.len.toNat = false) : receive k f take s = buffered f s := by
  have h1 : frameCut k f = false := by simp [frameCut, key, short]
  have h2 : frameChecks k f = false := by
    unfold frameChecks
    rcases failed with h | h | h <;> simp [h]
  simp [receive, can, h1, h2]

/-- A frame that passes them is held and acted on. -/
theorem receive_passed (k : MsgKind) (f : Frame) (take : State → State) (s : State) (can : s.canReceive f = true)
    (passed : frameChecks k f = true) : receive k f take s = take (buffered f s) := by
  have h : frameCut k f = false := by
    simp only [frameChecks, Bool.and_eq_true, beq_iff_eq, decide_eq_true_eq] at passed
    simp [frameCut, passed.1.1.1.1, passed.1.1.1.2]
  simp [receive, can, h, passed]

theorem endRound_eq (s : State) :
    endRound s = if s.lif.state = .inRound then toIdleWait s
      else { s with lif := { s.lif with round := {}, rxBuffer := none } } := by
  unfold endRound
  by_cases h : s.lif.state = .inRound <;> simp [h, State.withLif]

/-- The evaluated docket of a unit in INSPECTING joins its queue (R71). -/
theorem joinDocket_joins (d : Docket) (s : State) (inspecting : s.ieu.state = .inspecting) :
    JoinsItsQueue d s (joinDocket d s) ∧ (joinDocket d s).history = s.history ∧
    (joinDocket d s).ports.lineB = s.ports.lineB := by
  unfold JoinsItsQueue joinDocket
  simp only [reply_eq, State.withIeu, Ieu.toReady_eq, Ieu.call, inspecting]
  by_cases test : d.intent = some .test <;> simp [test, nextTag, State.outsideIntake]

end Sys2Proof.Machine
end

