-- ==== Sys2Proof/Laws/Round.lean ====
section
/-! SUPPORT. The end of a complete round: what its stages leave of the table and of the transmit queue. -/

namespace Sys2Proof.Machine

/-! ### The drop of a message -/

/-- A drop changes the transmit queue and the unit whose message it was (R48, R49). -/
theorem dropMessage_frame (s : State) :
    ∃ q x y z, dropMessage s = { s with txq := q, tsq := x, ieu := y, dsu := z } := by
  unfold dropMessage droppedEffect returnDropped directDropped callRefused withCall enterOos enterPhase
  (repeat' split) <;> exact ⟨_, _, _, _, rfl⟩

@[simp] theorem dropMessage_loader (s : State) : (dropMessage s).loader = s.loader := by
  obtain ⟨q, x, y, z, h⟩ := dropMessage_frame s; rw [h]
@[simp] theorem dropMessage_lif (s : State) : (dropMessage s).lif = s.lif := by
  obtain ⟨q, x, y, z, h⟩ := dropMessage_frame s; rw [h]
@[simp] theorem dropMessage_pvt (s : State) : (dropMessage s).pvt = s.pvt := by
  obtain ⟨q, x, y, z, h⟩ := dropMessage_frame s; rw [h]

/-! ### The table and the station's card -/

/-- The table's update, entry by entry (R32). -/
theorem updateTable_entry (posts : List PostWord) (w : PostWord) (s : State) (a : Addr) :
    (updateTable posts w s).entry a = updatedEntry posts w s a := by
  unfold updateTable State.entry
  simp only [State.withPvt_pvt]
  generalize updatedEntry posts w s = f
  have nth : allAddrs[a.toNat]? = some a := by revert a; decide
  simp [nth]

/-- An address newly appears when its entry was ABSENT and its post is intact (R36). -/
theorem appeared_iff (posts : List PostWord) (w : PostWord) (s t : State) (own : t.ownAddr = s.ownAddr)
    (table : t.pvt = (updateTable posts w s).pvt) :
    t.appeared s.pvt = true ↔ ∃ a : Addr, a ≠ s.ownAddr ∧ (s.entry a).view = .absent ∧
      ∃ v, classifyPost (posts.getD a.toNat (BitVec.allOnes 16)) = .intact v := by
  have entry : ∀ a, t.entry a = updatedEntry posts w s a := fun a => by
    rw [← updateTable_entry]; unfold State.entry; rw [table]
  unfold State.appeared
  simp only [List.any_eq_true, Bool.and_eq_true, bne_iff_ne, beq_iff_eq, own, entry]
  constructor
  · rintro ⟨a, -, ⟨ne, ab⟩, int⟩
    refine ⟨a, ne, ab, ?_⟩
    simp only [updatedEntry, beq_iff_eq, ne, if_false, updatePeer] at int
    split at int <;> simp_all [View.isIntact]
  · rintro ⟨a, ne, ab, v, int⟩
    refine ⟨a, mem_allAddrs a, ⟨ne, ab⟩, ?_⟩
    simp only [updatedEntry, beq_iff_eq, ne, if_false, updatePeer]
    rw [int]
    rfl

/-- A card's queuing changes the transmit queue alone (R36). -/
theorem queueCard_frame (r : Role) (s : State) : ∃ q, queueCard r s = { s with txq := q } := by
  unfold queueCard queueMsg
  (repeat' split) <;> exact ⟨_, rfl⟩

/-- The card of a round's end changes the queue, the table and the mark that the line is joined (R33, R36). -/
theorem cardStep_frame (r : Role) (old : List PvtEntry) (s : State) :
    ∃ q v, cardStep r old s = { s with txq := q, pvt := v, lif := { s.lif with joined := true } } := by
  unfold cardStep
  split
  · obtain ⟨q, h⟩ := queueCard_frame r
      ((setEntry s.ownAddr { s.entry s.ownAddr with card := some (ownCard r s) } s).withLif { s.lif with joined := true })
    exact ⟨q, _, h⟩
  · rename_i h
    have j : s.lif = { s.lif with joined := true } := by
      have : s.lif.joined = true := by simpa using h
      rw [← this]
    split
    · obtain ⟨q, e⟩ := queueCard_frame r s
      exact ⟨q, s.pvt, by rw [e, ← j]⟩
    · exact ⟨s.txq, s.pvt, by rw [← j]⟩

/-- What the card of a round's end does to the queue (R33, R36, R46). -/
theorem cardStep_txq (r : Role) (old : List PvtEntry) (s : State) :
    (cardStep r old s).txq =
      if (s.lif.joined = false ∨ s.appeared old = true) ∧ (∀ m ∈ s.txq, m.kind ≠ .stationCard) ∧ s.txq.length < 4 ∧
        s.lif.roleConflict = false
      then insertMsg { kind := .stationCard, dest := 0xFF, body := cardBody (ownCard r s) } s.txq else s.txq := by
  have has : ∀ t : State, t.txq = s.txq → (t.hasMsg .stationCard = false ↔ ∀ m ∈ s.txq, m.kind ≠ .stationCard) := by
    intro t h; simp [State.hasMsg, h]
  have queued : ∀ t : State, t.txq = s.txq → t.lif.roleConflict = s.lif.roleConflict → ownCard r t = ownCard r s →
      (queueCard r t).txq = if (∀ m ∈ s.txq, m.kind ≠ .stationCard) ∧ s.txq.length < 4 ∧ s.lif.roleConflict = false
        then insertMsg { kind := .stationCard, dest := 0xFF, body := cardBody (ownCard r s) } s.txq else s.txq := by
    intro t h c o
    unfold queueCard
    by_cases k : t.hasMsg .stationCard = true
    · have n : ¬ ∀ m ∈ s.txq, m.kind ≠ .stationCard := by rw [← has t h]; simp [k]
      simp [k, n, h]
    · have k' : t.hasMsg .stationCard = false := by simpa using k
      have n := (has t h).mp k'
      simp only [k', Bool.false_eq_true, if_false, queueMsg, State.txRoom, h, c, o]
      by_cases l : s.txq.length < 4 <;> cases s.lif.roleConflict <;> simp only [l, h, Config.txCap, and_true, and_false,
        decide_true, decide_false, Bool.not_true, Bool.not_false, Bool.and_true, Bool.and_false, if_true, if_false,
        Bool.false_eq_true, Bool.true_eq_false, if_pos n, State.withTxq_txq]
  unfold cardStep
  cases hj : s.lif.joined
  · simp only [Bool.not_false, if_true, true_or, true_and]
    exact queued _ rfl rfl rfl
  · simp only [Bool.not_true, Bool.false_eq_true, if_false]
    cases ha : s.appeared old
    · simp
    · simp only [if_true, or_true, true_and]; exact queued s rfl rfl rfl

/-- The card and the wait count of a round's end leave the queue that `RoundEndQueue` names. -/
theorem roundEnd_queue (role : Role) (posts : List PostWord) (w : PostWord) (cell263 : Bool) (s : State) :
    let up := s.withLif { s.lif with roundCounter := s.lif.roundCounter + 1 }
    RoundEndQueue role posts s (waitStep (cardStep role s.pvt (lineStep cell263 (updateTable posts w up)))).txq := by
  intro up
  have ap := appeared_iff posts w up (lineStep cell263 (updateTable posts w up)) rfl rfl
  have same : (lineStep cell263 (updateTable posts w up)).txq = s.txq := rfl
  unfold RoundEndQueue waitStep
  simp only [State.withTxq_txq, cardStep_txq, same]
  have e1 : (lineStep cell263 (updateTable posts w up)).lif.joined = s.lif.joined := rfl
  have e2 : (lineStep cell263 (updateTable posts w up)).lif.roleConflict = s.lif.roleConflict := rfl
  have e3 : ownCard role (lineStep cell263 (updateTable posts w up)) = ownCard role s := rfl
  have e4 : up.pvt = s.pvt := rfl
  have e5 : up.ownAddr = s.ownAddr := rfl
  have e6 : ∀ a, up.entry a = s.entry a := fun _ => rfl
  simp only [e4, e5, e6] at ap
  simp only [e1, e2, e3, ap]
  refine ⟨fun h1 h2 h3 h4 => ?_, fun h => ?_⟩
  · rw [if_pos ⟨h1, fun m hm k => h2 ⟨m, hm, k⟩, h3, h4⟩]
  · rw [if_neg]
    rintro ⟨g1, g2, g3, g4⟩
    rcases h with ⟨hj, ha⟩ | ⟨m, hm, k⟩ | hl | hc
    · rcases g1 with g1 | g1
      · rw [hj] at g1; cases g1
      · exact ha g1
    · exact g2 m hm k
    · omega
    · rw [hc] at g4; cases g4

end Sys2Proof.Machine
end

