-- ==== Sys2Proof/Laws/Wire.lean ====
section
/-! SUPPORT. What the readers of bodies and of serial lines do: bytes that were written read back, fields by their
form. -/

namespace Sys2Proof.Machine

/-! ### Numbers as bytes -/

@[simp] theorem beBytes_length (n v : Nat) : (beBytes n v).length = n := by
  induction n generalizing v with
  | zero => rfl
  | succ n ih => simp [beBytes, ih]

theorem beNat_append (a : List Byte) (b : Byte) : beNat (a ++ [b]) = beNat a * 256 + b.toNat := by
  simp [beNat, List.foldl_append]

/-- A number below 256^n is what its n bytes spell. -/
theorem beNat_beBytes (n v : Nat) (small : v < 256 ^ n) : beNat (beBytes n v) = v := by
  induction n generalizing v with
  | zero => simp at small; subst small; rfl
  | succ n ih =>
    have h : v / 256 < 256 ^ n := Nat.div_lt_of_lt_mul (by rw [Nat.pow_succ] at small; omega)
    simp only [beBytes, beNat_append, ih _ h, BitVec.toNat_ofNat]
    omega

theorem beNat_lt (bytes : List Byte) : beNat bytes < 256 ^ bytes.length := by
  induction bytes using List.reverseRecOn with
  | nil => simp [beNat]
  | append_singleton a b ih =>
    have := b.isLt
    simp only [beNat_append, List.length_append, List.length_singleton, Nat.pow_succ]
    omega

/-! ### Readers -/

theorem readNat_beBytes (n v : Nat) (rest : List Byte) (small : v < 256 ^ n) :
    readNat n (beBytes n v ++ rest) = some (v, rest) := by
  simp [readNat, beNat_beBytes n v small]

theorem readNat_byte (v : Nat) (rest : List Byte) (small : v < 256) :
    readNat 1 (BitVec.ofNat 8 v :: rest) = some (v, rest) :=
  readNat_beBytes 1 v rest (by simpa using small)

/-- A reader that reads a number takes as many bytes, and the number is one of theirs. -/
theorem readNat_some (n v : Nat) (bs rest : List Byte) (h : readNat n bs = some (v, rest)) :
    bs = bs.take n ++ rest ∧ n ≤ bs.length ∧ v = beNat (bs.take n) ∧ v < 256 ^ n := by
  unfold readNat at h
  split at h
  · cases h
  · rename_i long
    obtain ⟨rfl, rfl⟩ := Prod.mk.injEq .. ▸ Option.some.inj h
    have lt := beNat_lt (bs.take n)
    rw [List.length_take, Nat.min_eq_left (by omega)] at lt
    exact ⟨(List.take_append_drop n bs).symm, by omega, rfl, lt⟩

theorem require_true (bs : List Byte) : require true bs = some ((), bs) := rfl

theorem require_some (b : Bool) (bs rest : List Byte) (h : require b bs = some ((), rest)) : b = true ∧ rest = bs := by
  cases b <;> simp_all [require]

theorem readIn_beBytes (n lo hi v : Nat) (rest : List Byte) (small : v < 256 ^ n) (low : lo ≤ v) (high : v ≤ hi) :
    readIn n lo hi (beBytes n v ++ rest) = some (v, rest) := by
  simp [readIn, bind, StateT.bind, readNat_beBytes n v rest small, require, low, high, pure, StateT.pure]

theorem readIn_byte (lo hi v : Nat) (rest : List Byte) (small : v < 256) (low : lo ≤ v) (high : v ≤ hi) :
    readIn 1 lo hi (BitVec.ofNat 8 v :: rest) = some (v, rest) :=
  readIn_beBytes 1 lo hi v rest (by simpa using small) low high

theorem readIf_absent {α : Type} (r : Reader α) (bs : List Byte) : readIf false r bs = some (none, bs) := rfl

theorem readIf_present {α : Type} (r : Reader α) (v : α) (bs rest : List Byte) (h : r bs = some (v, rest)) :
    readIf true r bs = some (some v, rest) := by
  simp [readIf, bind, StateT.bind, h, pure, StateT.pure]

/-- The same reading of each of several elements, each written by its own bytes. -/
theorem readMany_map {α : Type} (r : Reader α) (write : α → Byte) (l : List α) (rest : List Byte)
    (each : ∀ x ∈ l, ∀ more, r (write x :: more) = some (x, more)) :
    readMany r l.length (l.map write ++ rest) = some (l, rest) := by
  induction l with
  | nil => rfl
  | cons x l ih =>
    have tail := ih fun y hy => each y (by simp [hy])
    have front := each x (by simp) (l.map write ++ rest)
    simp only [List.length_cons, List.map_cons, List.cons_append, readMany, bind, StateT.bind, pure, StateT.pure]
    rw [front]
    simp [tail]

theorem Cause.ofCode_code (c : Cause) : Cause.ofCode c.code = some c := by cases c <;> decide

theorem Cause.code_ofCode (n : Nat) (c : Cause) (h : Cause.ofCode n = some c) : c.code = n := by
  simpa using List.find?_some h

theorem FindingCode.ofCode_code (c : FindingCode) : FindingCode.ofCode c.code = some c := by cases c <;> decide

theorem FindingCode.code_le (c : FindingCode) : 1 ≤ c.code ∧ c.code ≤ 11 := by cases c <;> decide

theorem readCause_byte (lo hi : Nat) (c : Cause) (rest : List Byte) (low : lo ≤ c.code) (high : c.code ≤ hi)
    (small : c.code < 256) : readCause lo hi (BitVec.ofNat 8 c.code :: rest) = some (c, rest) := by
  simp [readCause, bind, StateT.bind, readIn_byte lo hi c.code rest small low high, readSome, Cause.ofCode_code]

/-! ### Identity characters -/

theorem charCode_le (c : Byte) (h : UpperOrDigit c ∨ c = 0x2D) : charCode c ≤ 36 := by
  rcases h with (h | h) | h
  · simp [charCode, isDigit, isUpper]; split <;> omega
  · simp [charCode, isDigit, isUpper]; split <;> omega
  · subst h; decide

theorem codeChar_charCode (c : Byte) (h : UpperOrDigit c ∨ c = 0x2D) : codeChar (charCode c) = c := by
  revert h c
  unfold UpperOrDigit
  decide

/-! ### Serial lines -/

theorem isMfrChar_iff (c : Byte) : isMfrChar c = true ↔ UpperOrDigit c := by
  simp [isMfrChar, isUpper, isDigit, UpperOrDigit]

theorem isSerialChar_iff (c : Byte) : isSerialChar c = true ↔ UpperOrDigit c ∨ c = 0x2D := by
  rw [← isMfrChar_iff]; simp [isSerialChar]

theorem numberIn_iff (lo hi : Nat) (t : Text) : numberIn lo hi t = true ↔ NumberIn lo hi t := by
  simp [numberIn, numberForm, NumberIn, and_assoc]

/-- The check of a reader field is its form and its range (Table 4-3). -/
theorem readerFieldOk_iff (n : Nat) (t : Text) : readerFieldOk n t = true ↔ ReaderFieldGood n t := by
  unfold readerFieldOk ReaderFieldGood
  split
  · simp [mfrForm, isMfrChar_iff]
  · simp [serialForm, isSerialChar_iff, and_assoc]
  · exact numberIn_iff _ _ _
  · exact numberIn_iff _ _ _
  · exact numberIn_iff _ _ _
  · exact numberIn_iff _ _ _
  · simp only [monthYearForm, twoDigits, Bool.and_eq_true, beq_iff_eq, decide_eq_true_eq, List.length_take,
      List.length_drop, and_assoc]
    constructor
    · rintro ⟨a, _, c, d, _, f, g, h⟩; exact ⟨a, c, d, f, g, h⟩
    · rintro ⟨a, c, d, f, g, h⟩; exact ⟨a, by omega, c, d, by omega, f, g, h⟩
  · simp [twoDigits]
  · exact numberIn_iff _ _ _
  · simp only [Bool.false_eq_true]

end Sys2Proof.Machine
end

