-- ==== Sys2Proof/Tests/Slice0.lean ====
section
/-! SUPPORT. The model's own tests: the form checks, small steps, and for every statement with hypotheses a state and
operands that meet them. -/

namespace Sys2Proof.Tests
open Sys2Proof Sys2Proof.Machine

set_option Elab.async false

/-! ### Small states -/

/-- The next state, if the outcome is one. -/
def nextOf : Out → Option State
  | .next t => some t
  | _ => none

/-- Something holds of the next state. -/
def After (c : Instr) (s : State) (p : State → Bool) : Bool :=
  match exec c s with
  | .next t => p t
  | _ => false

/-- A running station. -/
def running (r : BitVec 2) (a : Addr) : State :=
  { loader := { phase := .running, straps := { addr := a, role := r } }
    lif := { state := .idleWait, joined := true, keepAlive := .running, silence := .running } }

/-- A station in a round, its post made. -/
def inRound (s : State) (g : RoundStage) : State :=
  { s with lif := { s.lif with state := .inRound, round := { stage := g, posted := s.postNow } } }

/-- A docket as the reader and the inspector make it. -/
def rawDocket : Docket :=
  { mfr := ascii "QBX", serial := ascii "77-0042", hash := identityHash (ascii "QBX") (ascii "77-0042"), cls := 1,
    testPressure := 20000, waterCapacity := 50, tare := 5000, ree := none, lastMonth := 3, lastYear := 15,
    mfgYear := 5 }

/-- A docket for test, with its tag. -/
def testDocket : Docket :=
  { rawDocket with
    tag := some 7, ratioLimit := some 1000, holdTime := some 30, period := some { month := 3, year := 2025 }
    mass := some 4990, massLoss := some 20, intent := some .test }

/-- A docket that goes past the heads. -/
def directDocket : Docket :=
  { rawDocket with
    tag := some 9, period := some { month := 3, year := 2025 }, mass := some 4990, massLoss := some 20
    intent := some .hold, reason := some .badDate }

/-- A head in a state, with a docket in test. -/
def head (h : HeadState) (n : Nat) : State :=
  { running 1 5 with
    tsq := { state := some h, phase := some { ticks := n }, docket := some { testDocket with test := some { head := 5 } } }
    msu := { pressure := some 30000, limits := some { top := 20600, cond := 22000, low := 19800 } } }

/-- An intake station. -/
def intake (u : IntakeState) : State :=
  { running 0 2 with ieu := { state := u, period := some { month := 3, year := 2025 } } }

/-- A disposal station with a docket in work. -/
def disposal (p : ActionPhase) : State :=
  { running 2 15 with dsu := { work := some { item := .docket testDocket, phase := p } } }

/-- A line of a serial port. -/
def line (t : String) : PortLine := { chars := (ascii t).map fun c => { code := c } }

/-- A frame of a message from an address. -/
def frame (a : Addr) (m : TxMsg) : Frame := frameOf (msgKey a m) m

/-- A message that contends. -/
def contending (k : MsgKind) : TxMsg := { kind := k, dest := 0x10, body := [], contending := true }

/-- The post table of a line where address 5 is a head in a state and address 15 is DISPOSE in READY. -/
def posts (state arg : Nat) : List PostWord :=
  (allAddrs.map fun a =>
    if a == 5 then makePost .test state arg else if a == 15 then makePost .dispose 1 0 else BitVec.allOnes 16)

/-- A view table with head 5 in a state, and its card. -/
def views (state arg : Nat) : List PvtEntry :=
  (posts state arg).map fun w =>
    { view := classifyPost w
      card := if postRole w == some .test then
          some { role := .test, cause := .powerOn, clamped := false
                 head := some { rating := 30000, capacity := 100, k := 2 } }
        else none }

/-- A sample with a pressure code, the other channels in range. -/
def pressed (code : BitVec 16) : Sample := { level := 10000, press := code, temp := 2000 }

/-- An event's place ahead of a sample at atmosphere, with the inputs read at its tick. -/
def before (p : Pins) : TickOrder := .beforeSample p (pressed 16)

/-! ### The form checks -/

theorem test_form_image : (Instr.profileReadComplete (List.replicate 1024 0) false false).wellFormed = true ∧
    (Instr.profileReadComplete (List.replicate 1025 0) false false).wellFormed = false := by decide +kernel
theorem test_form_send : (Instr.messageSend [1, 2, 3, 4]).wellFormed = true ∧
    (Instr.messageSend [1, 2, 3]).wellFormed = false ∧ (Instr.messageSend (List.replicate 65 0)).wellFormed = false := by
  decide +kernel
theorem test_form_frame_kind : (Instr.releaseCall (frame 15 (contending .releaseCall)) 0).wellFormed = true ∧
    (Instr.docketOffer (frame 15 (contending .releaseCall)) 0).wellFormed = false := by decide +kernel
theorem test_form_frame_body :
    (Instr.verdictNote { frame 15 (contending .verdictNote) with len := 5 }).wellFormed = false ∧
    (Instr.verdictNote { frame 15 (contending .verdictNote) with len := 61 }).wellFormed = true := by decide +kernel
theorem test_form_posts : (Instr.roundEnd (posts 1 0) true).wellFormed = true ∧
    (Instr.roundEnd [] true).wellFormed = false := by decide +kernel
theorem test_form_line : (Instr.readerLine (line "AB;C")).wellFormed = true ∧
    (Instr.readerLine { chars := [{ code := 0x0A }] }).wellFormed = false ∧
    (Instr.markReaderLine { chars := [{ code := 0x0A }] }).wellFormed = false ∧
    (Instr.markReaderLine { chars := [{ code := 0x0A, framingError := true }] }).wellFormed = true := by decide +kernel
theorem test_form_keyword : (Instr.mass (line "MASS 12")).wellFormed = true ∧
    (Instr.mass (line "CLOSE")).wellFormed = false ∧ (Instr.period (line "MASS 12")).wellFormed = false ∧
    (Instr.find (line "MASS 12")).wellFormed = false ∧ (Instr.close (line "MASS 12")).wellFormed = false ∧
    (Instr.cancel (line "MASS 12")).wellFormed = false ∧ (Instr.clearEntry (line "MASS 12")).wellFormed = false := by
  decide +kernel
theorem test_form_unknown : (Instr.unknownKeyword (line "HELLO 1")).wellFormed = true ∧
    (Instr.unknownKeyword (line "MASS 1")).wellFormed = false := by decide +kernel
theorem test_form_tick : (Instr.estop (before { estop := true })).wellFormed = true ∧
    (Instr.estop .afterSample).wellFormed = true ∧ (Instr.estop (before {})).wellFormed = false ∧
    (Instr.psw (before {})).wellFormed = false ∧ (Instr.abort (before {})).wellFormed = false ∧
    (Instr.lidOpen (before { lidClosed := true })).wellFormed = false ∧ (Instr.seatActive (before {})).wellFormed = false ∧
    (Instr.lidClosed (before {})).wellFormed = false ∧
    (Instr.fillComplete (before { jacketFull := true })).wellFormed = false ∧
    (Instr.unloadComplete (before { seat := true, unloadClear := true })).wellFormed = false ∧
    (Instr.clearEdge (before {})).wellFormed = false ∧ (Instr.clearEdge (before { clear := true })).wellFormed = true := by
  decide +kernel
theorem test_form_place : (Instr.arrivalTimeout 5).wellFormed = true ∧
    (Instr.arrivalTimeout 6).wellFormed = false := by decide +kernel

/-! ### Figures of the spec -/

theorem test_identity_hash : identityHash (ascii "123") (ascii "456789") = 0x29B1 := by decide +kernel
theorem test_post_words : makePost .test 1 5 = 0x222D ∧ makePost .test 5 0 = 0x2A07 ∧ makePost .test 6 63 = 0x2DFC ∧
    makePost .inspect 1 3 = 0x0219 ∧ makePost .dispose 1 0 = 0x4205 := by decide +kernel
theorem test_stamp_text : stampText (ascii "QB") testDocket = ascii "QB 0325" := by decide +kernel
theorem test_serial_values : serialValue (ascii "A7-0042") = some 42 ∧ serialValue (ascii "123456789012") = some 456789012 ∧
    serialValue (ascii "X1234567890") = some 234567890 ∧ serialValue (ascii "00-000") = some 0 ∧
    serialValue (ascii "A7-") = none ∧ serialValue (ascii "77B") = none := by decide +kernel
/-- A return of the test docket with an even and an odd count of findings, its arithmetic run to a stage. -/
def returning (n : Nat) (x : TestPart) : Docket :=
  { testDocket with findings := List.replicate n { code := .guard, severity := some .minor }, ree := some 6400, test := some x }
/-- Test parts of returns: passed, ended after E_p, and stopped by two conditions. -/
def passedPart : TestPart :=
  { head := 5, s0 := some 160000, peak := 20600, holdMean := some 20011, zeroStamp := some 1, holdStart := some 2
    holdEnd := some 65535, et := some 6197, ep := some 350, ee := some 5847, ratio := some 564, verdict := .pass }
def endedPart : TestPart :=
  { passedPart with ep := some 8000, ee := none, ratio := none, verdict := .invalid, cause := some .permExceedsTotal }
def stoppedPart : TestPart :=
  { head := 5, zeroStamp := some 1, conditions := [.lidOpen, .estop], verdict := .invalid, cause := some .lidOpen }
theorem test_docket_forms :
    ([(0, passedPart), (3, endedPart), (6, stoppedPart),
      (1, { endedPart with et := some (-1), ep := none, cause := some .noExpansion })] : List (Nat × TestPart)).all
      (fun c =>
        let d := returning c.1 c.2
        parseDocket .docketReturn 5 (docketBody .docketReturn d) == some (d.received .docketReturn) &&
        MsgKind.docketReturn.lengthOk (docketBody .docketReturn d).length) = true ∧
    parseDocket .docketReturn 6 (docketBody .docketReturn (returning 0 passedPart)) = none ∧
    parseDocket .docketOffer 2 (docketBody .docketOffer testDocket ++ [0]) = none ∧
    parseDocket .docketOffer 2 (docketBody .docketOffer directDocket) = none ∧
    parseDocket .docketOffer 2 ((docketBody .docketOffer testDocket).set 4 0) = none := by decide +kernel
theorem test_docket_round_trip : parseDocket .docketOffer 2 (docketBody .docketOffer testDocket) = some testDocket ∧
    parseDocket .docketDirect 2 (docketBody .docketDirect directDocket) = some directDocket ∧
    (parseDocket .docketReturn 5 (docketBody .docketReturn
      { testDocket with test := some { head := 5, verdict := .invalid, cause := some .leakDrop,
                                       conditions := [.leakDrop] } })).isSome = true := by decide +kernel
/-- A finished set of readings, for the worked case of section 8.4. -/
def readings (st sp : Nat) : TestPart :=
  { head := 5, s0 := some 160000, st := some st, sp := some sp, t0 := some 2150, tt := some 2162, tp := some 2166 }
/-- The head of the worked case. -/
def worked : Params := { gB := 2048, cT := 600 }
theorem test_worked_case :
    (let z := arithmetic worked { testDocket with ree := some 6400 } (readings 209800 163100)
     (z.et, z.ep, z.ratio, z.ee) = (some 6197, some 350, some 564, some 5847) ∧ z.verdict = .pass) ∧
    (arithmetic worked testDocket (readings 160600 163100)).cause = some .noExpansion ∧
    (arithmetic { worked with nUnder := 40 } testDocket (readings 209800 159920)).cause = some .negativePermanent ∧
    (arithmetic worked testDocket (readings 209800 210000)).cause = some .permExceedsTotal ∧
    (arithmetic worked testDocket (readings 209800 165264)).ratio = some 1000 ∧
    (arithmetic worked testDocket (readings 209800 165600)).cause = some .expansionRatio ∧
    (arithmetic worked { testDocket with ree := some 5800 } (readings 209800 163100)).cause = some .elasticOverRee := by
  decide +kernel
theorem test_no_table_word : decodeTableWord 8 1 = none ∧ step (State.reset.withFetchWord 8 1) = .next State.reset :=
  ⟨rfl, rfl⟩

/-! ### Witnesses: the step, the invariants, start-up -/

theorem witness_StepRunsFrontCommand :
    (intake .purge).pending = [] ∧ nextOf (step (intake .purge)) = some (intake .purge) ∧
    nextOf (step { intake .purge with pending := [.infeedClear, .lampRepeat] }) =
      some { intake .ready with pending := [.lampRepeat] } := by decide +kernel

/-- DISPOSE with five dockets held, a call, a full record buffer and a waiting line, the oldest line being sent. -/
def busyDisposal : State :=
  let d := { testDocket with test := some { head := 5, verdict := .pass } }
  { running 2 15 with
    dsu :=
      { arrival := ["1", "2", "3", "4", "5"].map fun n => { docket := { directDocket with serial := ascii n } }
        call := some { head := 5 }
        work := some { item := .docket { d with disposal := some { disposition := .stamped, cause := none } }
                       phase := .gone }
        recBuffer := List.replicate 4 (.stray (ascii "AAA") (ascii "1"))
        recWaiters := [{ line := .docket d, source := .work }] }
    txq := [{ kind := .releaseCall, dest := 5, body := [] }, { kind := .stationCard, dest := 0xFF, body := [0x80] }]
    pending := [.recordLineSent true] }

/-- A head in SAFE during a test that holds two conditions, and an abort edge to come. -/
def listed : State :=
  { head .safe 0 with
    tsq := { (head .safe 0).tsq with
      safeFrom := some .holding
      docket := some { testDocket with test := some { head := 5, conditions := [.lidOpen, .estop] } } }
    ilk := { latched := [.lidOpen, .estop], inForce := some .estop, abortArmed := true }
    pending := [.abort .afterSample] }
theorem witness_StoresStayWellKept :
    (StoresWellKept busyDisposal ∧ (nextOf (step busyDisposal)).isSome = true ∧ busyDisposal.dsu.arrival.length + 1 = 6) ∧
    (StoresWellKept listed ∧ After (.abort .afterSample) listed (fun t =>
      ((t.tsq.docket.bind Docket.test).map TestPart.conditions) == some [.lidOpen, .estop, .aborted])) := by
  refine ⟨⟨⟨?_, fun d x hd => (by simp [busyDisposal, running] at hd), ?_⟩, by decide +kernel⟩,
    ⟨?_, fun d x hd hx => ?_, ?_⟩, by decide +kernel⟩
  · unfold WithinCapacity; decide +kernel
  · unfold HistSet.OneWayPerHash; decide +kernel
  · unfold WithinCapacity; decide +kernel
  · cases hd; cases hx; unfold TestPart.ConditionsFit; decide
  · unfold HistSet.OneWayPerHash; decide +kernel
theorem witness_QueueOrderKept : QueueOrdered busyDisposal ∧
    After (.recordLineSent true) busyDisposal (fun t => t.txq.map TxMsg.kind == [.releaseCall, .verdictNote, .stationCard]) := by
  unfold QueueOrdered
  decide +kernel
theorem witness_ArrivalIdentitiesKept : ArrivalDistinct busyDisposal ∧ (nextOf (step busyDisposal)).isSome = true := by
  unfold ArrivalDistinct
  decide +kernel
/-- A docket that passed, in the first exchange of the marking sequence. -/
def marking : State :=
  { running 2 15 with
    dsu := { work := some { item := .docket { testDocket with test := some { head := 5, verdict := .pass } }
                            phase := .marking .clear } }
    pending := [.linkClear (.word 0x100029 true)] }
theorem witness_OnlyPassedAreMarked : MarksPassedOnly marking ∧ marking.dsu.inPhase (.marking .clear) = true ∧
    After (.linkClear (.word 0x100029 true)) marking (fun t => t.dsu.inPhase (.marking (.load 0))) := by
  refine ⟨⟨fun m _ => ⟨_, _, rfl, rfl, rfl, rfl⟩, ?_, fun h => absurd rfl h⟩, rfl, by decide +kernel⟩
  decide
theorem witness_AgesStayBounded :
    let s := { inRound (head .done 0) .window with
      tsq := { (head .done 0).tsq with doneAge := 31 }, pending := [.roundEnd (posts 11 31) true] }
    AgesBounded s ∧ (nextOf (step s)).isSome = true ∧ After (.roundEnd (posts 11 31) true) s (fun t => t.tsq.doneAge == 31) := by
  unfold AgesBounded
  decide +kernel
theorem witness_SafeAndResponseAgree :
    let s := { head .ramping 9 with pending := [.lidOpen .afterSample] }
    SafeMatchesResponse s ∧ After (.lidOpen .afterSample) s (fun t => t.ilk.inForce == some .lidOpen) ∧
    SafeMatchesResponse { head .safe 0 with
      tsq := { (head .safe 0).tsq with safeFrom := some .ramping }
      ilk := { latched := [.overband, .lidOpen], inForce := some .lidOpen } } := by
  unfold SafeMatchesResponse
  decide +kernel
theorem witness_ResetsClearTheStation :
    (let s := intake .ready
     ¬ (s.loader.phase = .reset ∧ s.loader.cause = .powerOn) ∧
     After .pinReset s (fun t => t.loader.cause == .pin && t.ieu.state == .purge)) ∧
    State.reset.loader.phase = .reset ∧ State.reset.loader.cause = .powerOn ∧
    nextOf (exec .pinReset State.reset) = some State.reset := by decide +kernel

/-- A station that reads its profile. -/
def reading (r : BitVec 2) : State := { State.reset with loader := { phase := .reading, straps := { addr := 5, role := r } } }
/-- A profile image without items, or with some, its CRC computed. -/
def image (role : Byte) (items : List Byte) : List Byte :=
  let b := [0x00, 0x01] ++ beBytes 2 (8 + items.length) ++ [role, 0x00] ++ items
  b ++ beBytes 2 (crc16Bytes b).toNat

theorem witness_StrapsAndProfileChecks :
    State.reset.loader.phase = .reset ∧
    After (.resetRelease 5 3 true) State.reset (fun t => t.loader.fault == some .roleStrap) ∧
    After (.resetRelease 5 1 true) State.reset (fun t => t.loader.phase == .reading) ∧
    (reading 1).loader.phase = .reading ∧ Role.ofCode (reading 1).loader.straps.role = some .test ∧
    (imageFormat [] = 0xFFFF ∧ After (.profileReadComplete [] false false) (reading 1) (fun t => t.loader.fault == some .noProfile)) ∧
    (imageFormat [0, 2] = 2 ∧
      After (.profileReadComplete [0, 2] false false) (reading 1) (fun t => t.loader.fault == some .profileFormat)) ∧
    (imageFormat [0, 1, 0, 7] = 1 ∧ imageLength [0, 1, 0, 7] < 8 ∧
      After (.profileReadComplete [0, 1, 0, 7] false false) (reading 1) (fun t => t.loader.fault == some .profileFormat)) ∧
    (let im := (image 1 []).dropLast
     imageFormat im = 1 ∧ imageLength im = 8 ∧ imageCrcOk im = false ∧
      After (.profileReadComplete im false false) (reading 1) (fun t => t.loader.readCount == 1 && t.loader.phase == .reading) ∧
      After (.profileReadComplete im false false) { reading 1 with loader := { (reading 1).loader with readCount := 1 } }
        (fun t => t.loader.fault == some .profileCrc)) ∧
    (imageCrcOk (image 2 []) = true ∧ imageByte (image 2 []) 4 ≠ 0#6 ++ (reading 1).loader.straps.role ∧
      After (.profileReadComplete (image 2 []) false false) (reading 1) (fun t => t.loader.fault == some .profileRole)) ∧
    (imageCrcOk (image 1 [9]) = true ∧ imageItems (image 1 [9]) = none ∧
      After (.profileReadComplete (image 1 [9]) false false) (reading 1) (fun t => t.loader.fault == some .profileFormat)) := by
  decide +kernel
theorem witness_GoodProfileStartsTheStation :
    imageFormat (image 1 [0x22, 1, 9]) = 1 ∧ imageLength (image 1 [0x22, 1, 9]) = 11 ∧
    imageCrcOk (image 1 [0x22, 1, 9]) = true ∧ imageByte (image 1 [0x22, 1, 9]) 4 = 0#6 ++ (reading 1).loader.straps.role ∧
    imageItems (image 1 [0x22, 1, 9]) = some [(0x22, [9])] ∧
    After (.profileReadComplete (image 1 [0x22, 1, 9]) false false) (reading 1)
      (fun t => t.tsq.state == some .idle && t.params.k == 4 && t.loader.clamped && t.adm.kEff == 4) ∧
    After (.profileReadComplete (image 1 []) true false) (reading 1) (fun t => t.tsq.oosCause == some .orphan) ∧
    After (.profileReadComplete (image 1 []) false false) { reading 1 with ilk := { marks := [.sensorRange] } }
      (fun t => t.tsq.state == some .outOfService && t.tsq.oosCause == some .sensorRange) ∧
    After (.profileReadComplete (image 0 []) false true) (reading 0) (fun t => t.ieu.state == .noPeriod) ∧
    After (.profileReadComplete (image 0 []) false false) (reading 0) (fun t => t.ieu.state == .purge) ∧
    After (.profileReadComplete (image 2 []) false false) (reading 2) (fun t => t.lif.state == .idleWait) := by
  decide +kernel
/-- A lot item: maker ABC, year 20, serials 5 to 9, class 3, condemn. -/
def lotItem : List Byte := [0x41, 0x42, 0x43, 20, 0, 0, 0, 5, 0, 0, 0, 9, 3, 1]
theorem witness_ProfileItemsAreTaken :
    (((stationItem 0x01).or (headItem 0x01)).map NumItem.lo = some 20 ∧
     ((stationItem 0x01).or (headItem 0x01)).map NumItem.role = some none) ∧
    (takeItem .test { params := {} } (0x01, [19])).params.pacingGap = 20 ∧
    takeItem .test { params := { ({} : Params) with pacingGap := 99 }, seen := [0x01] } (0x01, [0, 0, 0, 0, 20]) =
      { params := {}, clamped := true, seen := [0x01, 0x01] } ∧
    (let t := takeItem .inspect { params := {} } (0x47, [16, 0, 9, 0, 99, 0x27, 0x11, 2])
     t.clamped = true ∧ t.params.classes.getLast? = some
       { defined := true, intervalYears := 15, holdTime := 10, ratioLimit := 100, massLossLimit := 10000
         reeApplies := true } ∧
     (takeItem .inspect t (0x47, [1])).params.classes.getLast? = some {}) ∧
    (let t := takeItem .inspect { params := {} } (0x50, lotItem)
     t.clamped = false ∧ t.params.lots.head? = some
       { valid := true, mfr := some (ascii "ABC"), mfgYear := some 20, serial := some (5, 9), cls := some 3
         condemn := true } ∧
     (takeItem .inspect t (0x50, lotItem.set 12 9)).params.lots.head? = some {} ∧
     (takeItem .inspect t (0x50, lotItem.set 4 0xFF)).clamped = true ∧
     (takeItem .inspect { params := {} } (0x5F, lotItem.take 3 ++ List.replicate 10 0xFF ++ [0])).params.lots.getLast? =
       some { valid := true, mfr := some (ascii "ABC") }) ∧
    (takeItem .dispose { params := {} } (0x1C, ascii "QB7")).params.plantMark = ascii "QB7" ∧
    (takeItem .dispose { params := { ({} : Params) with plantMark := ascii "QB7" } } (0x1C, ascii "q")).params.plantMark =
      ascii "RQ" ∧
    ((stationItem 0x60).or (headItem 0x60)).isNone = true ∧
    takeItem .test { params := {} } (0x60, [1]) = { params := {}, clamped := true } ∧
    ((stationItem 0x22).or (headItem 0x22)).map NumItem.role = some (some .test) ∧
    (takeItem .dispose { params := {} } (0x22, [2])).clamped = true := by decide +kernel
theorem witness_LampShowsTheFirstStanding :
    (intake .ready).loader.phase ≠ .reset ∧ State.reset.loader.phase = .reset ∧
    (let s := { reading 1 with loader := { (reading 1).loader with fault := some .profileCrc } }
     s.loader.fault = some .profileCrc ∧ (lampShown s).code = 57) ∧
    ((intake .ready).role = some .inspect ∧ (intake .ready).loader.fault = none ∧
      (intake .ready).lif.state ≠ .addressConflict ∧ (intake .ready).lif.roleConflict = false ∧
      (intake .ready).ilk.stopFlag = false ∧ (lampShown (intake .ready)).code = 0) ∧
    (let s := { intake .ready with lif := { (intake .ready).lif with state := .addressConflict } }
     s.role = some .inspect ∧ (lampShown s).code = 28) ∧
    (let s := { intake .ready with lif := { (intake .ready).lif with roleConflict := true } }
     s.role = some .inspect ∧ (lampShown s).code = 27) ∧
    (let s := { disposal .lane with ilk := { stopFlag := true } }
     s.role = some .dispose ∧ (lampShown s).code = 1) ∧
    (let s := { disposal .lane with dsu := { (disposal .lane).dsu with halt := some .markFault } }
     s.role = some .dispose ∧ s.ilk.stopFlag = false ∧ (lampShown s).code = 50) ∧
    (let s := { head .safe 0 with ilk := { inForce := some .creep } }
     s.role = some .test ∧ s.tsq.state = some .safe ∧ (lampShown s).code = 11) ∧
    (let s := { head .outOfService 0 with tsq := { (head .outOfService 0).tsq with oosCause := some .orphan } }
     s.tsq.state = some .outOfService ∧ (lampShown s).code = 26) ∧
    (let s := { head .idle 0 with adm := { mismatch := some 3 } }
     s.tsq.state ≠ some .safe ∧ s.tsq.state ≠ some .outOfService ∧ lampShown s = { code := 30, addr := some 3 }) := by
  decide +kernel

/-! ### Witnesses: the cell line -/

/-- A station in CALL_WAIT. -/
def callWait : State := { head .idle 0 with lif := { (head .idle 0).lif with state := .callWait, keepAlive := .expired } }

theorem witness_IdleSpanCounts :
    (head .idle 0).lif.state = .idleWait ∧ (head .idle 0).lif.idleCount < 1024 ∧
    After (.idleSpan [.released 1023]) (head .idle 0) (fun t => t.lif.state == .idleWait && t.lif.idleCount == 1023) ∧
    After (.idleSpan [.released 1023, .low, .released 1024]) (head .idle 0) (fun t => t.lif.state == .callWait) ∧
    callWait.lif.state ≠ .idleWait ∧ nextOf (exec (.idleSpan [.low]) callWait) = some callWait := by decide +kernel
theorem witness_CallsAndTheirReasons :
    callWait.lif.state = .callWait ∧ callWait.reasonToCall = true ∧
    After (.callMade 0) callWait (fun t => t.lif.state == .inRound) ∧
    After (.callJoined 8) callWait (fun t => t.lif.state == .idleWait) ∧
    (let quiet := { callWait with lif := { callWait.lif with keepAlive := .running } }
     quiet.lif.state = .callWait ∧ quiet.reasonToCall = false ∧ quiet.lif.joined = true ∧ quiet.lif.mode = .quiet ∧
     quiet.lif.roleConflict = false ∧ { quiet with pvt := views 1 0 }.reasonToCall = false ∧
     { quiet with pvt := views 2 63 }.reasonToCall = true ∧
     { quiet with lif := { quiet.lif with mode := .paced, pacing := .expired } }.reasonToCall = true ∧
     { quiet with lif := { quiet.lif with joined := false }, pvt := views 2 63 }.reasonToCall = false) ∧
    (head .idle 0).lif.state ≠ .callWait := by decide +kernel
theorem witness_OwnPostAndAddressConflict :
    (let s := { head .idle 0 with lif := { (head .idle 0).lif with state := .inRound } }
     let w := makePost .test 1 0
     s.lif.round.posted = none ∧ s.postNow = some w ∧ After (.post w) s (fun t => t.lif.round.posted == some w) ∧
     w &&& 0xFFFE ≠ w ∧ After (.post (w &&& 0xFFFE)) s (fun t => t.lif.state == .addressConflict)) ∧
    (let s := { head .ramping 0 with lif := { (head .ramping 0).lif with state := .addressConflict } }
     s.lif.state = .addressConflict ∧ s.loader.phase = .running ∧
     After (.silenceExpiry .afterSample) s (fun t => t.lif.state == .addressConflict && t.tsq.state == some .safe)) := by
  decide +kernel
theorem witness_PostsAndDocketsReadBack : argumentOk .test 14 28 = true ∧ argumentOk .test 13 1 = true ∧
    argumentOk .test 5 63 = true ∧ argumentOk .inspect 6 8 = true ∧ argumentOk .dispose 0 6 = true ∧
    classifyPost (makePost .test 14 28) = .intact (makePost .test 14 28) := by decide +kernel
theorem witness_DocketsReadBack : testDocket.Sendable .docketOffer 2 ∧ directDocket.Sendable .docketDirect 2 ∧
    (returning 3 passedPart).Sendable .docketReturn 5 ∧ (returning 0 stoppedPart).Sendable .docketReturn 5 := by
  have part : passedPart.Sendable 5 ∧ stoppedPart.Sendable 5 := by
    unfold TestPart.Sendable
    refine ⟨?_, ?_⟩ <;> simp [passedPart, stoppedPart, Cause.code]
    exact ⟨fun v h => by omega, fun v h => by omega, 6197, rfl, 350, rfl, by omega, by omega, rfl, rfl⟩
  unfold Docket.Sendable
  refine ⟨?_, ?_, ?_, ?_⟩ <;>
    simp [returning, testDocket, directDocket, rawDocket, ascii, UpperOrDigit, Cause.code]
  · exact part.1
  · exact part.2
theorem witness_SingleMisreadIsUnknown : classifyPost (makePost .test 1 5) = .intact (makePost .test 1 5) ∧
    classifyPost (makePost .test 1 5 ^^^ (1#16 <<< 15)) = .unknown ∧
    classifyPost (makePost .test 1 5 ^^^ (1#16 <<< 0)) = .unknown := by decide +kernel
theorem witness_PostWordOfTheState :
    (head .waitRamp 0).role = some .test ∧ (head .waitRamp 0).tsq.state = some .waitRamp ∧
    (let s := { head .safe 0 with ilk := { inForce := some .estop } }
     s.ilk.inForce = some .estop ∧ s.postNow = some (makePost .test 13 1)) ∧
    (let s := { head .outOfService 0 with tsq := { (head .outOfService 0).tsq with oosCause := some .orphan } }
     s.postNow = some (makePost .test 14 26)) ∧
    (head .unloading 0).postNow = some (makePost .test 12 63) ∧
    (intake .noPeriod).role = some .inspect ∧ (intake .noPeriod).postNow = some (makePost .inspect 5 0) ∧
    busyDisposal.role = some .dispose ∧ busyDisposal.postNow = some (makePost .dispose 4 5) := by decide +kernel
theorem witness_IncompleteRoundsAndLineTimers :
    (let s := inRound (head .idle 0) .posts
     s.lif.state = .inRound ∧ s.lif.round.posted.isSome = true ∧ s.lif.round.stage = .posts ∧
     After .incompleteRoundEnd s (fun t => t.lif.state == .idleWait)) ∧
    (let s := { head .idle 0 with lif := { (head .idle 0).lif with pacing := .running } }
     s.lif.pacing = .running ∧ s.lif.keepAlive = .running ∧ s.lif.silence = .running ∧ s.tsq.state ≠ some .ramping ∧
     s.ilk.latched = [] ∧ After .pacingExpiry s (fun t => t.lif.pacing == .expired) ∧
     After .keepAliveExpiry s (fun t => t.lif.keepAlive == .expired) ∧
     After (.silenceExpiry (before {})) s (fun t => t.lif.lineSilent && t.tsq.tickOpen)) ∧
    (let s := { head .safe 0 with
       tsq := { (head .safe 0).tsq with safeFrom := some .ramping }
       ilk := { latched := [.lidOpen, .overband], inForce := some .lidOpen } }
     (∀ c ∈ s.ilk.latched, Cause.lidOpen.code ≤ c.code) ∧
     After (.silenceExpiry .afterSample) s (fun t => t.lif.lineSilent && t.ilk == s.ilk && t.tsq == s.tsq)) ∧
    State.reset.lif.silence ≠ .running ∧ State.reset.lif.pacing ≠ .running ∧ State.reset.lif.keepAlive ≠ .running ∧
    ((intake .ready).lif.silence = .running ∧ (intake .ready).role ≠ some .test) := by decide +kernel

/-! ### Witnesses: messages -/

theorem witness_ContentionKeyFields :
    let m : TxMsg := { kind := .stationCard, dest := 0xFF, body := [], wait := 15 }
    m.wait ≤ 15 ∧ (msgKey 5 m).toNat = 2048 + 6 * 256 + 5 ∧ keyKind (msgKey 5 m) = some .stationCard ∧
    keyKind 0x705 = none ∧ keyKind 0x905 = none ∧ keyKind 0x105 = some .docketReturn := by decide +kernel

/-- A station whose front message is of a kind, its post made. -/
def sender (k : MsgKind) (s : State) : State :=
  inRound { s with txq := [{ kind := k, dest := 0x10, body := [] }] } .posts
/-- The same once its key has won the window. -/
def winner (k : MsgKind) (s : State) (g : RoundStage) : State :=
  { s with
    txq := [contending k]
    lif := { s.lif with
      state := .inRound
      round := { stage := g, posted := s.postNow, keySent := some (msgKey s.ownAddr (contending k)), won := true } } }
/-- The cells that the winner writes. -/
def sentCells (k : MsgKind) (s : State) : List Byte := frameBytes (frame s.ownAddr (contending k))

theorem witness_ContentionOutcome :
    (let s := sender .releaseCall busyDisposal
     s.lif.state = .inRound ∧ s.lif.round.posted.isSome = true ∧ s.lif.round.stage = .posts ∧ s.txq ≠ [] ∧
     After (.contention 0x2FF) s (fun t => t.lif.round.won) ∧
     After (.contention 0x1FF) s (fun t => !t.lif.round.won)) ∧
    (let s := inRound (head .idle 0) .posts
     s.lif.round.stage = .posts ∧ s.txq = [] ∧ keyKind 0x123 = some .docketReturn ∧
     After (.contention 0x123) s (fun t => t.lif.round.key == some 0x123 && t.lif.state == .inRound) ∧
     keyKind 0x923 = none ∧ After (.contention 0x923) s (fun t => t.lif.state == .idleWait && t.lif.round.stage == .over) ∧
     After (.contention 0xFFF) s (fun t => t.lif.state == .inRound)) ∧
    (let s := sender .stationCard (head .idle 0)
     s.txq ≠ [] ∧ After (.contention 0x723) s (fun t => t.lif.state == .idleWait && !t.lif.round.won &&
       t.txq.map TxMsg.contending == [true])) := by decide +kernel
theorem witness_MessageSending :
    [MsgKind.verdictNote, .stationCard, .docketReturn, .docketDirect, .docketOffer, .releaseCall].all (fun k =>
      let s := winner k (head .done 0) .window
      s.contender == some (contending k) && s.lif.round.keySent.isSome && s.lif.round.won &&
      s.lif.round.stage == .window &&
      After (.messageSend (sentCells k s)) s (fun t =>
        if k.directed then t.lif.round.stage == .accept else t.txq == []) &&
      After (.messageSend (List.replicate 4 0)) s (fun t =>
        if k.directed then t.txq == [{ contending k with attempts := 1 }] else t.txq == [])) = true := by
  decide +kernel
theorem witness_AcceptPairsAndInvalidOnes :
    acceptPair 0x5A = some 5 ∧ acceptPair 0x5B = none ∧ (5 : Addr) ≠ 6 ∧
    [MsgKind.docketReturn, .docketDirect, .docketOffer, .releaseCall].all (fun k =>
      let s := winner k (head .done 0) .accept
      s.contender == some (contending k) && s.lif.round.won && s.lif.round.stage == .accept &&
      After (.acceptFieldRead 0xFF) s (fun t => t.txq == [{ contending k with attempts := 1 }])) = true := by
  decide +kernel
theorem witness_ValidAcceptMovesCustody :
    (let s := winner .docketReturn (head .unloading 0) .accept
     s.contender = some (contending .docketReturn) ∧ s.tsq.state = some .unloading ∧ s.tsq.docket.isSome = true ∧
     s.tsq.docket.map Docket.noCylinder = some false ∧ acceptPair 0xF0 = some 15 ∧
     After (.acceptFieldRead 0xF0) s (fun t => t.tsq.gateOpen && t.tsq.docket.isNone)) ∧
    (let s := winner .docketReturn { head .unloading 0 with tsq := { (head .unloading 0).tsq with
        docket := some { testDocket with test := some { head := 5, noCylinder := true } } } } .accept
     s.tsq.docket.map Docket.noCylinder = some true ∧ s.inputs.seat = false ∧ s.ilk.marks = [] ∧
     After (.acceptFieldRead 0xF0) s (fun t => t.tsq.state == some .idle) ∧
     After (.acceptFieldRead 0xF0) { s with inputs := { seat := true } } (fun t => t.tsq.oosCause == some .orphan) ∧
     After (.acceptFieldRead 0xF0) { s with ilk := { marks := [.sensorRange] } }
       (fun t => t.tsq.oosCause == some .sensorRange)) ∧
    (let s := winner .docketReturn { head .safe 0 with
        tsq := { (head .safe 0).tsq with returnState := some .unloading }, ilk := { inForce := some .estop } } .accept
     s.tsq.safeFrom = none ∧ s.tsq.docket.map Docket.noCylinder = some false ∧
     After (.acceptFieldRead 0xF0) s (fun t => t.tsq.state == some .safe && t.tsq.gateFlag && !t.tsq.gateOpen &&
       t.tsq.returnState == some .unloading)) ∧
    (let s := winner .docketReturn { head .safe 0 with
        tsq := { (head .safe 0).tsq with returnState := some .unloading
                                         docket := some { testDocket with test := some { head := 5, noCylinder := true } } } } .accept
     After (.acceptFieldRead 0xF0) s (fun t => t.tsq.state == some .safe && t.tsq.returnState == some .idle)) ∧
    After (.acceptFieldRead 0xF0) (winner .docketReturn (head .outOfService 0) .accept) (fun t =>
      t.tsq.state == some .outOfService && t.tsq.docket.isNone) ∧
    After (.acceptFieldRead 0x5A) (winner .docketOffer { intake .ready with
        ieu := { (intake .ready).ieu with infeed := [testDocket], directFault := true } } .accept)
      (fun t => t.ieu.state == .infeedFull && t.ieu.infeed == []) ∧
    (let s := winner .docketOffer { intake .infeedFull with
        ieu := { (intake .infeedFull).ieu with infeed := List.replicate 8 testDocket } } .accept
     s.ieu.state = .infeedFull ∧
     After (.acceptFieldRead 0x5A) s (fun t => t.ieu.route == 5 && t.ieu.state == .ready && t.ieu.infeed.length == 7)) ∧
    (let s := winner .docketDirect { intake .estop with ieu := { (intake .estop).ieu with direct := [directDocket] } } .accept
     After (.acceptFieldRead 0xF0) s (fun t => t.ieu.bypass == .owed .bypassRelease && t.ieu.direct == [])) ∧
    (let s := winner .releaseCall busyDisposal .accept
     After (.acceptFieldRead 0x5A) s (fun t => t.dsu.call == some { head := 5, returnPhase := true })) := by decide +kernel
theorem witness_FourthUnacceptedDrops :
    State.reset.txq = [] ∧
    (let s := { head .unloading 0 with txq := [{ contending .docketReturn with attempts := 4 }] }
     s.tsq.state = some .unloading ∧ After .messageDropped s (fun t => t.tsq.oosCause == some .handoffFailed && t.txq == [])) ∧
    (let s := { head .safe 0 with
        tsq := { (head .safe 0).tsq with returnState := some .unloading }, txq := [{ contending .docketReturn with attempts := 4 }] }
     After .messageDropped s (fun t => t.tsq.state == some .safe && t.tsq.returnState == some .outOfService &&
       t.tsq.oosCause == some .handoffFailed)) ∧
    (let s := { head .idle 0 with txq := [{ contending .docketReturn with attempts := 4 }] }
     s.tsq.state ≠ some .unloading ∧ After .messageDropped s (fun t => t.tsq.state == some .idle && t.txq == [])) ∧
    (let s := { intake .ready with txq := [{ contending .docketDirect with attempts := 4 }] }
     After .messageDropped s (fun t => t.ieu.directFault && t.ieu.state == .infeedFull)) ∧
    (let s := { busyDisposal with txq := [{ contending .releaseCall with attempts := 4 }] }
     After .messageDropped s (fun t => t.dsu.call.isNone)) ∧
    (let s := { intake .ready with txq := [{ contending .docketOffer with attempts := 9 }] }
     nextOf (exec .messageDropped s) = some s) := by decide +kernel
theorem witness_QueueInsertion :
    let q := [MsgKind.docketReturn, .docketDirect, .stationCard].map contending
    q.Pairwise (fun x y => x.kind.order ≤ y.kind.order) ∧
    (insertMsg (contending .docketDirect) q).map TxMsg.kind = [.docketReturn, .docketDirect, .docketDirect, .stationCard] ∧
    (head .idle 0).txq.length < 4 ∧ (head .idle 0).lif.roleConflict = false ∧
    { head .idle 0 with txq := List.replicate 4 (contending .stationCard) }.txq.length = 4 := by decide +kernel

/-- A head in IDLE at address 5 whose own view shows it so, with its card. -/
def idleHead : State :=
  inRound { running 1 5 with tsq := { state := some .idle }, pvt := views 1 20 } .posts
/-- An offer of the test docket, from INSPECT at address 2. -/
def offer : Frame := frame 2 { kind := .docketOffer, dest := 0x10, body := docketBody .docketOffer testDocket }

theorem witness_OfferTaken :
    idleHead.role = some .test ∧ idleHead.canReceive offer = true ∧ frameChecks .docketOffer offer = true ∧
    offer.dest = 0x10 ∧ parseDocket .docketOffer (keyAddr offer.key) offer.body = some testDocket ∧
    idleHead.tsq.state = some .idle ∧ idleHead.chosenHead testDocket = some 5 ∧
    After (.docketOffer offer 0x5A) idleHead (fun t => t.tsq.state == some .loading && t.tsq.docket.isSome) ∧
    After (.docketOffer offer 0x50) idleHead (fun t => t.tsq.state == some .idle && t.lif.round.acceptDriven == some 0x5A) ∧
    { idleHead with pvt := [] }.chosenHead testDocket ≠ some 5 ∧
    After (.docketOffer offer 0x5A) { idleHead with pvt := [] } (fun t => t.lif.round.acceptDriven == none) := by
  decide +kernel
/-- A call to head 5 from DISPOSE. -/
def call : Frame := frame 15 { kind := .releaseCall, dest := 5, body := [] }
theorem witness_CallTaken :
    let s := inRound (head .done 0) .posts
    s.role = some .test ∧ s.canReceive call = true ∧ frameChecks .releaseCall call = true ∧
    call.dest = 0#4 ++ s.ownAddr ∧ s.tsq.state = some .done ∧ s.tsq.docket.isSome = true ∧ s.txq.length < 4 ∧
    s.lif.roleConflict = false ∧
    After (.releaseCall call 0x5A) s (fun t => t.tsq.state == some .unloading && t.tsq.caller == some 15 && t.hasMsg .docketReturn) ∧
    After (.releaseCall call 0x50) s (fun t => t.tsq.state == some .done) ∧
    After (.releaseCall call 0x5A) (inRound (head .draining 0) .posts) (fun t => t.lif.round.acceptDriven == none) := by
  decide +kernel
/-- DISPOSE in a round, a call to head 5 outstanding. -/
def calling : State := inRound { running 2 15 with dsu := { call := some { head := 5 } } } .posts
/-- A direct docket from INSPECT, and a return from head 5, with or without a cylinder. -/
def directFrame : Frame := frame 2 { kind := .docketDirect, dest := 15, body := docketBody .docketDirect directDocket }
def returned (empty : Bool) : Frame :=
  let part : TestPart :=
    if empty then { head := 5, noCylinder := true, verdict := .notTested, cause := some .loadTimeout }
    else { head := 5, verdict := .invalid, cause := some .leakDrop }
  frame 5 { kind := .docketReturn, dest := 15, body := docketBody .docketReturn { testDocket with test := some part } }
theorem witness_DocketsAcceptedAtDispose :
    calling.role = some .dispose ∧ calling.lif.roleConflict = false ∧ calling.canReceive directFrame = true ∧
    directFrame.dest = 0#4 ++ calling.ownAddr ∧ frameChecks .docketDirect directFrame = true ∧
    parseDocket .docketDirect 2 directFrame.body = some directDocket ∧ calling.dsu.free = 5 ∧
    After (.docketDirect directFrame 0xF0) calling (fun t => t.dsu.arrival == [{ docket := directDocket }]) ∧
    (let full := { calling with dsu := { calling.dsu with arrival := [{ docket := directDocket }] } }
     full.dsu.arrival.any (fun a => a.docket.mfr == directDocket.mfr && a.docket.serial == directDocket.serial) = true ∧
     After (.docketDirect directFrame 0xF0) full (fun t => t.dsu.arrival.length == 1)) ∧
    After (.docketDirect directFrame 0xF4) calling (fun t =>
      t.dsu == calling.dsu && t.lif.round.acceptDriven == some 0xF0) ∧
    After (.docketReturn (returned true) 0x50) calling (fun t =>
      t.dsu == calling.dsu && t.txq == [] && t.lif.round.acceptDriven == some 0xF0) ∧
    [false, true].all (fun b =>
      frameChecks .docketReturn (returned b) && calling.canReceive (returned b) &&
      (parseDocket .docketReturn 5 (returned b).body).map Docket.noCylinder == some b &&
      keyAddr (returned b).key == 5) = true ∧
    After (.docketReturn (returned false) 0xF0) calling (fun t => t.dsu.call.isNone && t.dsu.arrival.length == 1) ∧
    After (.docketReturn (returned true) 0xF0) calling (fun t =>
      t.dsu.call.isNone && t.dsu.arrival == [] && t.dsu.recBuffer.length == 1 && t.hasMsg .verdictNote) ∧
    (let full := { calling with dsu := { calling.dsu with recBuffer := busyDisposal.dsu.recBuffer } }
     4 ≤ full.dsu.recBuffer.length ∧ After (.docketReturn (returned true) 0xF0) full (fun t =>
       t.dsu.arrival.map Arrival.missing == [true] && t.dsu.recWaiters.length == 1 && t.txq == [])) ∧
    (let none := { calling with dsu := {} }
     none.dsu.call = Option.none ∧ After (.docketReturn (returned false) 0xF0) none (fun t => t.dsu.arrival == [])) := by
  decide +kernel
/-- A card of a head with K 1, and a note. -/
def cardFrame : Frame :=
  frame 7 { kind := .stationCard, dest := 0xFF
            body := cardBody { role := .test, cause := .pin, clamped := true
                               head := some { rating := 500, capacity := 5, k := 1 } } }
def noteFrame : Frame :=
  frame 15 { kind := .verdictNote, dest := 0xFF
             body := noteBody { hash := 0x29B1, disposition := .returned, invalid := true, tag := 7 } }
theorem witness_CardsAndNotesTaken :
    (idleHead.canReceive cardFrame = true ∧ frameChecks .stationCard cardFrame = true ∧ cardFrame.dest = 0xFF ∧
      keyAddr cardFrame.key ≠ idleHead.ownAddr ∧ (parseCard cardFrame.body).isSome = true ∧
      idleHead.lif.round.cardFrom = none ∧
      After (.stationCard cardFrame) idleHead (fun t => t.adm.kEff == 1 && (t.entry 7).card.isSome &&
        (t.settledCard 7).isNone && (t.settledCard 5).isSome) ∧
      After (.stationCard cardFrame) calling (fun t => t.adm == {} && (t.entry 7).card.isSome)) ∧
    (let s := inRound (intake .ready) .posts
     s.canReceive noteFrame = true ∧ frameChecks .verdictNote noteFrame = true ∧ noteFrame.dest = 0xFF ∧
     (parseNote noteFrame.body).isSome = true ∧ s.role = some .inspect ∧ s.lif.roleConflict = false ∧
     After (.verdictNote noteFrame) s (fun t => ((historySet t.history 0x29B1).way false).invalidCount == 1) ∧
     idleHead.role ≠ some .inspect ∧ After (.verdictNote noteFrame) idleHead (fun t => t.history == idleHead.history)) := by
  decide +kernel
theorem witness_BadFramesTakeNothing :
    let bad : Frame := { offer with crc := offer.crc + 1 }
    idleHead.canReceive bad = true ∧ frameCrc bad.key bad.dest bad.len bad.body ≠ bad.crc ∧
    After (.docketOffer bad 0x5A) idleHead (fun t => t.tsq.state == some .idle && t.lif.rxBuffer == some bad) ∧
    keyKind bad.key = some .docketOffer ∧ bad.len.toNat ≤ 60 ∧
    (let long := { offer with len := 61 }
     idleHead.canReceive long = true ∧ 60 < long.len.toNat ∧
     After (.docketOffer long 0x5A) idleHead (fun t => t.lif.state == .idleWait && t.lif.rxBuffer == none &&
       t.lif.round.posted.isSome)) ∧
    (let odd := { offer with key := offer.key ^^^ 0x800 }
     idleHead.canReceive odd = true ∧ keyKind odd.key ≠ some .docketOffer ∧
     After (.docketOffer odd 0x5A) idleHead (fun t => t.lif.state == .idleWait && t.lif.rxBuffer == none)) ∧
    (let other := frame 2 { kind := .docketOffer, dest := 0x11, body := docketBody .docketOffer testDocket }
     frameChecks .docketOffer other = true ∧ other.dest ≠ 0x10 ∧
     After (.docketOffer other 0x5A) idleHead (fun t => t.lif.rxBuffer == some other && t.tsq.state == some .idle)) ∧
    (let s := inRound (head .done 0) .posts
     let other := frame 15 { kind := .releaseCall, dest := 6, body := [] }
     s.canReceive other = true ∧ frameChecks .releaseCall other = true ∧ other.dest ≠ 0#4 ++ s.ownAddr ∧
     After (.releaseCall other 0x5A) s (fun t => t.tsq.state == some .done)) ∧
    [MsgKind.docketDirect, .docketReturn].all (fun k =>
      let f := frame 2 { kind := k, dest := 15, body := List.replicate 26 0 }
      calling.canReceive f && frameChecks k f && parseDocket k 2 f.body == none) = true ∧
    (let card := frame 7 { kind := .stationCard, dest := 0xFF, body := [3] }
     let note := frame 7 { kind := .verdictNote, dest := 0xFF, body := List.replicate 5 0 }
     idleHead.canReceive card = true ∧ frameChecks .stationCard card = true ∧ parseCard card.body = none ∧
     frameChecks .verdictNote note = true ∧ parseNote note.body = none) := by decide +kernel

/-! ### Witnesses: the end of a round -/

/-- A station in the window stage of a round with an empty transmit queue. -/
def ending (s : State) : State := inRound s .window

theorem witness_RoundEndUpdatesTheTable :
    (let s := ending (head .idle 0)
     s.role = some .test ∧ s.lif.round.posted = some (makePost .test 1 0) ∧ s.lif.state = .inRound ∧ s.roundDue = true ∧
     s.lif.joined = true ∧ (0 : Addr) ≠ s.ownAddr ∧
     After (.roundEnd (posts 1 0) false) s (fun t => t.lif.mode == .paced && t.lif.roundCounter == 1 &&
       (t.entry 15).view == .intact (makePost .dispose 1 0) && (t.entry 0).view == .absent)) ∧
    (let s := ending { head .idle 0 with lif := { (head .idle 0).lif with joined := false, mode := .paced } }
     let s1 := { s with lif := { s.lif with state := .callWait, idleCount := 1024 } }
     s1.lif.state ≠ .inRound ∧ s1.roundDue = true ∧
     After (.roundEnd (posts 1 0) true) s1 (fun t => t.lif.state == .callWait && t.lif.idleCount == 1024 &&
       t.lif.roundCounter == 1) ∧
     (winner .releaseCall busyDisposal .window).roundDue = false ∧
     s1.lif.joined = false ∧
     After (.roundEnd (posts 1 0) true) s1 (fun t => t.lif.mode == .quiet && (t.entry 5).card.isSome)) ∧
    (let s := ending { head .idle 0 with pvt := views 1 0 }
     let s1 := { s with lif := { s.lif with round := { s.lif.round with cardFrom := some 15 } },
                        pvt := s.pvt.set 15 { card := some { role := .inspect, cause := .pin, clamped := false, head := none } } }
     After (.roundEnd (posts 1 0) true) s1 (fun t => (t.entry 15).card.isNone) ∧
     classifyPost 1 = .unknown ∧
     After (.roundEnd (List.replicate 16 1) true) s1 (fun t => (t.entry 15).view == .unknown)) ∧
    (let s := ending { intake .ready with ieu := { (intake .ready).ieu with
       infeed := [testDocket], infeedCh := .pulsing .infeedRelease, route := 5 }, txq := [contending .stationCard] }
     s.lif.roleConflict = false ∧ intakeReady s = true ∧
     After (.roundEnd ((posts 1 0).set 9 (makePost .inspect 3 0)) true) s (fun t => t.lif.roleConflict && t.txq == [] &&
       !intakeReady t && t.ieu.infeedCh == .idle && t.ieu.route == 0 && t.ieu.infeed == [testDocket]) ∧
     After (.roundEnd ((posts 1 0).set 9 (makePost .dispose 1 0)) true) s (fun t => !t.lif.roleConflict)) ∧
    (let s := ending { disposal .lane with dsu := { (disposal .lane).dsu with lane := 3 } }
     laneRelease s = true ∧
     After (.roundEnd (posts 1 0) true) { s with lif := { s.lif with round := { s.lif.round with posted := s.postNow } } }
       (fun t => !t.lif.roleConflict) ∧
     After (.roundEnd ((posts 1 0).set 3 (makePost .dispose 1 0)) true) s (fun t => t.lif.roleConflict &&
       t.dsu.lane == 0 && !laneRelease t && t.dsu.work == s.dsu.work)) := by decide +kernel
theorem witness_RoundEndAdvancesCounts :
    (let s := ending { head .idle 0 with
       tsq := { (head .idle 0).tsq with idleAge := 63 }
       pvt := views 1 0, txq := [contending .verdictNote] }
     s.role = some .test ∧ s.roundDue = true ∧ s.lif.joined = true ∧
     (allAddrs.all fun a => a == s.ownAddr || (s.entry a).view != .absent ||
       classifyPost ((posts 1 63).getD a.toNat (BitVec.allOnes 16)) == .absent) = true ∧
     nextOf (exec .messageDropped s) = some s ∧
     After (.roundEnd (posts 1 63) true) s (fun t => t.tsq.idleAge == 63 &&
       t.txq == [{ contending .verdictNote with wait := 1, contending := false }]) ∧
     (s.entry 9).view = .absent ∧
     After (.roundEnd ((posts 1 63).set 9 (makePost .test 6 63)) true) s (fun t =>
       t.txq.map TxMsg.kind == [.verdictNote, .stationCard]) ∧
     After (.roundEnd ((posts 1 63).set 9 (makePost .test 6 63)) true) { s with txq := List.replicate 4 (contending .verdictNote) }
       (fun t => t.txq.length == 4 && !t.hasMsg .stationCard)) ∧
    (let s := ending { head .done 0 with lif := { (head .done 0).lif with joined := false } }
     s.tsq.state = some .done ∧ s.lif.joined = false ∧ s.txq = [] ∧ s.lif.roleConflict = false ∧
     After (.roundEnd (posts 11 0) true) s (fun t => t.tsq.doneAge == 1 && t.hasMsg .stationCard)) ∧
    (let s := ending { head .unloading 0 with txq := [{ contending .docketReturn with attempts := 4 }] }
     After .messageDropped s (fun r => r.txq == [] && r.tsq.state == some .outOfService) ∧
     After (.roundEnd (posts 12 0) true) s (fun t => !t.hasMsg .docketReturn && t.tsq.oosCause == some .handoffFailed)) ∧
    (let s := ending { head .holding 7 with adm := { waitAge := 9 } }
     s.tsq.state ∉ [some .idle, some .done, some .waitRamp] ∧
     After (.roundEnd (posts 7 0) true) s (fun t => t.tsq == s.tsq && t.msu == s.msu && t.adm.waitAge == 9)) := by
  decide +kernel
theorem witness_AdmissionAtRoundEnd :
    let s := ending (head .waitRamp 0)
    s.role = some .test ∧ s.lif.round.posted = some (makePost .test 5 0) ∧ s.roundDue = true ∧
    s.tsq.state = some .waitRamp ∧ s.lif.roleConflict = false ∧ postState (makePost .test 5 0) = 5 ∧
    After (.roundEnd (posts 5 0) true) s (fun t => t.tsq.state == some .ramping && t.countAhead == 0) ∧
    After (.roundEnd ((posts 5 0).set 9 (makePost .test 6 63)) true) s (fun t =>
      t.tsq.state == some .waitRamp && t.adm.waitAge == 1 && t.countAhead == 1) ∧
    (let card := fun k => some { role := .test, cause := .pin, clamped := false, head := some ⟨20000, 50, k⟩ : Card }
     let held := { s with pvt := (s.pvt.set 3 { card := card 2 }).set 9 { card := card 3 }, params := { k := 3 } }
     held.effectiveK = 2 ∧ held.lowKAddr = some 3 ∧ s.effectiveK = s.params.k ∧ s.lowKAddr = none) := by decide +kernel
theorem witness_PlacementAndArbitration :
    idleHead.chosenHead testDocket = some 5 ∧ { running 2 15 with pvt := views 11 33 }.headToCall = some 5 ∧
    (running 2 15).headToCall = none ∧ (running 2 15).chosenHead testDocket = none := by decide +kernel
theorem witness_CallQueuedAtRoundEnd :
    (let s := ending (running 2 15)
     s.role = some .dispose ∧ s.lif.round.posted.isSome = true ∧ s.roundDue = true ∧ s.lif.roleConflict = false ∧
     s.txq = [] ∧ s.dsu.call = none ∧ s.lif.round.cardFrom = none ∧ s.dsu.stopCopy = false ∧ s.dsu.halt = none ∧
     After (.roundEnd (posts 11 33) true) s (fun t => t.headToCall == some 5 && t.dsu.call == some { head := 5 } &&
       t.hasMsg .releaseCall) ∧
     (let note : TxMsg := { contending .verdictNote with contending := false }
      let call : TxMsg := { kind := .releaseCall, dest := 5, body := [] }
      let s := { s with pvt := views 11 33 }
      After (.roundEnd (posts 11 33) true) { s with txq := [note, note, note] } (fun t =>
        t.txq == [call, note, note, note] && t.dsu.call.isSome) ∧
      After (.roundEnd (posts 11 33) true) { s with txq := [note, note, note, note] } (fun t =>
        t.txq == [note, note, note, note] && t.dsu.call.isNone) ∧
      After (.roundEnd (posts 11 33) true) { s with txq := [call] } (fun t => t.txq == [call] && t.dsu.call.isNone) ∧
      After (.roundEnd (posts 11 33) true) { s with dsu := { call := some { head := 3 } } } (fun t =>
        t.txq == [] && t.dsu.call == some { head := 3 }) ∧
      (let s1 := { s with dsu := { call := some { head := 3 } }, txq := [{ call with attempts := 4, contending := true }] }
       After .messageDropped s1 (fun r => r.dsu.call.isNone && r.txq == []) ∧
       After (.roundEnd (posts 11 33) true) s1 (fun t => t.txq == [call] && t.dsu.call == some { head := 5 })) ∧
      (let s1 := { s with lif := { s.lif with roleConflict := true } }
       After (.roundEnd (posts 11 33) true) s1 (fun t => t.lif.roleConflict && t.txq == [] && t.dsu == s1.dsu)))) ∧
    (let s := ending { running 2 15 with dsu := { halt := some .punchFault } }
     s.dsu.halt.isSome = true ∧ After (.roundEnd (posts 11 33) true) s (fun t => t.dsu.call.isNone)) ∧
    (let card : Card := { role := .test, cause := .pin, clamped := false, head := some ⟨20000, 50, 1⟩ }
     let came := fun d : Dsu =>
       let s := ending { running 2 15 with dsu := d, pvt := (views 11 33).set 5 { card := some card } }
       { s with lif := { s.lif with round := { s.lif.round with cardFrom := some 5 } } }
     let stray : RecLine := .stray (ascii "AAA") (ascii "1")
     After (.roundEnd (posts 11 33) true) (came {}) (fun t => t.dsu.recBuffer == [.card 5 card] && t.dsu.call.isSome) ∧
     After (.roundEnd (posts 11 33) true) (came { recBuffer := List.replicate 3 stray }) (fun t =>
       t.headToCall == some 5 && t.dsu.recBuffer.length == 4 && t.dsu.call.isNone) ∧
     After (.roundEnd (posts 11 33) true) (came { recBuffer := List.replicate 4 stray }) (fun t =>
       t.dsu.recWaiters == [{ line := .card 5 card, source := .card 5 }]) ∧
     After (.roundEnd (posts 11 33) true) (came
         { recBuffer := List.replicate 4 stray, recWaiters := [{ line := stray, source := .card 5 }] }) (fun t =>
       t.dsu.recWaiters == [{ line := .card 5 card, source := .card 5 }]) ∧
     After (.roundEnd ((posts 11 33).set 5 (makePost .inspect 1 0)) true) (came {}) (fun t => t.dsu.recBuffer == []) ∧
     After (.roundEnd ((posts 11 33).set 3 (makePost .dispose 1 0)) true) (came {}) (fun t =>
       t.lif.roleConflict && t.dsu.recBuffer == [] && t.txq == [])) := by decide +kernel
theorem witness_OffersQueuedAtRoundEnd :
    (let s := ending { intake .ready with ieu := { (intake .ready).ieu with infeed := [testDocket] }, pvt := views 2 63 }
     s.role = some .inspect ∧ s.lif.round.posted.isSome = true ∧ s.roundDue = true ∧ s.lif.roleConflict = false ∧
     s.txq = [] ∧ s.ieu.infeedCh = .idle ∧ s.ieu.stage = .idle ∧ s.ieu.direct = [] ∧
     After (.roundEnd (posts 1 0) true) s (fun t => t.covered testDocket && t.chosenHead testDocket == some 5 &&
       t.txq.map TxMsg.kind == [.docketOffer] && t.ieu == s.ieu) ∧
     (let busy := { s with txq := [{ contending .docketOffer with contending := false }] }
      After (.roundEnd (posts 1 0) true) busy (fun t => t.txq == busy.txq) ∧
      After (.roundEnd (posts 2 63) true) busy (fun t => t.chosenHead testDocket == none && t.txq == []))) ∧
    (let s := ending { intake .ready with pvt := views 2 63
                                          ieu := { (intake .ready).ieu with infeed := [testDocket], direct := [directDocket] } }
     After (.roundEnd (posts 1 0) true) s (fun t => t.txq.map TxMsg.kind == [.docketDirect, .docketOffer])) ∧
    (let s := ending { intake .infeedFull with
        ieu := { (intake .infeedFull).ieu with infeed := List.replicate 8 testDocket, infeedCh := .pulsing .infeedRelease } }
     After (.roundEnd (posts 2 63) true) s (fun t => !t.covered testDocket && t.ieu == s.ieu) ∧
     After (.roundEnd (posts 2 63) true) { s with ieu := { s.ieu with infeedCh := .idle } } (fun t =>
       t.ieu.state == .ready && t.hasMsg .docketDirect)) ∧
    (let s := ending { intake .ready with ieu := { (intake .ready).ieu with infeed := [testDocket] } }
     After (.roundEnd (posts 2 63) true) s (fun t => !t.covered testDocket && t.ieu.infeedCh == .pulsing .infeedDivert &&
       t.ieu.direct.map Docket.reason == [some .noHead])) ∧
    (let s := ending { intake .ready with ieu := { (intake .ready).ieu with direct := [directDocket] } }
     s.ieu.infeed = [] ∧ s.ieu.bypass = .idle ∧ s.ieu.directFault = false ∧
     After (.roundEnd (posts 2 63) true) s (fun t => t.disposeAddr == some 15 && t.hasMsg .docketDirect) ∧
     (let s1 := { s with txq := [{ contending .docketDirect with attempts := 4 }] }
      After .messageDropped s1 (fun r => r.ieu.directFault && r.ieu.state == .infeedFull) ∧
      After (.roundEnd (posts 2 63) true) s1 (fun t => !t.hasMsg .docketDirect && t.ieu.directFault && t.ieu.direct == [directDocket])))
    := by
  decide +kernel

/-! ### Witnesses: the test head -/

/-- A head before its release of pressure, or with the pressure down. -/
def low (s : State) : State := { s with msu := { s.msu with pressure := some 0 } }
/-- A head in SAFE during a test, a response in force. -/
def safe (c : Cause) : State :=
  { head .safe 0 with
    tsq := { (head .safe 0).tsq with safeFrom := some .holding }
    ilk := { latched := [c], disarmed := [c], inForce := some c, timer := { ticks := 200 } } }
/-- A docket's list of conditions in a head's slot. -/
def conditions (s : State) : List Cause := ((s.tsq.docket.bind Docket.test).map TestPart.conditions).getD []

theorem witness_ConditionsTakeTheHeadToSafe :
    ((head .idle 0).role = some .test ∧ HeadState.idle ≠ .safe ∧ (head .idle 0).ilk.inForce = none ∧
      Cause.estop ∉ (head .idle 0).ilk.disarmed ∧
      After (.estop (before { estop := true })) (head .idle 0) (fun t => t.tsq.state == some .safe && t.tsq.returnState == some .idle)) ∧
    (let s := { head .holding 5 with ilk := { pswArmed := true, abortArmed := true } }
     s.ilk.latched = [] ∧ s.vented = false ∧ (low s).vented = true ∧
     After (.psw .afterSample) s (fun t => t.ilk.inForce == some .pressureSwitch && conditions t == [.pressureSwitch]) ∧
     After (.lidOpen .afterSample) s (fun t => t.ilk.inForce == some .lidOpen && t.tsq.safeFrom == some .holding) ∧
     After (.abort .afterSample) s (fun t => t.ilk.inForce == some .aborted) ∧
     After (.abort .afterSample) (low s) (fun t => t.ilk.inForce == none && t.tsq.state == some .done &&
       (t.tsq.docket.bind Docket.test).map TestPart.verdict == some .invalid)) ∧
    (let s := head .filling 4799
     TickCounter.at { ticks := 4799 } (before {}) = s.params.fillTime * 20 ∧ s.tsq.phase = some { ticks := 4799 } ∧
     (openTick (before {}) s).vented = true ∧
     After (.fillTimeout (before {})) s (fun t => t.tsq.state == some .done && t.ilk.inForce == none) ∧
     After (.fillTimeout (.beforeSample {} (pressed 60))) s (fun t => t.ilk.inForce == some .fillTimeout) ∧
     TickCounter.at { ticks := 4799 } .afterSample ≠ s.params.fillTime * 20 ∧
     nextOf (exec (.fillTimeout .afterSample) s) = some s) ∧
    (let s := head .ramping 1800
     s.params.rampTime * 20 = 1800 ∧ s.lif.silence = .running ∧ s.vented = false ∧
     After (.rampTimeout .afterSample) s (fun t => t.ilk.inForce == some .rampTimeout) ∧
     nextOf (exec (.rampTimeout .afterSample) (head .ramping 1801)) = some (head .ramping 1801) ∧
     After (.silenceExpiry .afterSample) s (fun t => t.ilk.inForce == some .lineSilence && t.lif.lineSilent) ∧
     After (.silenceExpiry (before { seat := true })) s (fun t => t.ilk.inForce == none && t.lif.lineSilent &&
       t.tsq.state == some .draining && (t.tsq.docket.bind Docket.test).map TestPart.cause == some (some .lineSilence))) ∧
    (let x : Sample := { pressed 100 with level := 65520 }
     (∀ h ∈ [HeadState.filling, .zeroing, .waitRamp, .venting, .settling, .draining],
       After (.sampleTick {} x) (head h 3) (fun t => t.ilk.inForce == some .sensorRange && t.tsq.safeFrom == some h &&
         conditions t == [.sensorRange])) ∧
     After (.sampleTick {} (pressed 15)) (head .holding 3) (fun t => t.ilk.inForce == some .sensorRange) ∧
     After (.sampleTick {} (pressed 65520)) (head .ramping 3) (fun t => t.ilk.inForce == some .sensorRange) ∧
     After (.sampleTick {} { x with press := 49 }) (head .venting 3) (fun t => t.tsq.safeFrom == some .settling) ∧
     After (.sampleTick {} x) (head .idle 3) (fun t => t.tsq.state == some .idle && t.msu.levelRail) ∧
     (let s := { head .zeroing 3 with
        ilk := { disarmed := [.sensorRange] }
        msu := { (head .zeroing 3).msu with window := { count := 9, levelSum := 90000, failures := 2 } } }
      After (.sampleTick {} x) s (fun t => t.tsq.state == some .zeroing && t.msu.window == { failures := 2 }))) := by
  decide +kernel
theorem witness_HigherPriorityPreempts :
    ((safe .leakDrop).role = some .test ∧ (safe .leakDrop).topLatched = some .leakDrop ∧
      After (.estop .afterSample) (safe .leakDrop) (fun t => t.ilk.inForce == some .estop &&
        t.ilk.latched == [.leakDrop, .estop] && t.ilk.timer.ticks == 0)) ∧
    (let s := { safe .leakDrop with ilk := { (safe .leakDrop).ilk with abortArmed := true } }
     Cause.leakDrop.code < 14 ∧ s.tsq.safeFrom = some .holding ∧
     After (.abort .afterSample) s (fun t => t.ilk.inForce == some .leakDrop && t.ilk.latched == [.leakDrop, .aborted])) ∧
    (let s := { safe .pressureSwitch with ilk := { (safe .pressureSwitch).ilk with pswArmed := true } }
     s.topLatched = some .pressureSwitch ∧
     After (.psw .afterSample) s (fun t => t.ilk.latched == [.pressureSwitch] && !t.ilk.pswArmed)) ∧
    (let s := { safe .leakDrop with ilk := { (safe .leakDrop).ilk with pswArmed := true } }
     After (.psw .afterSample) s (fun t => t.ilk.inForce == some .pressureSwitch && t.ilk.latched == [.leakDrop, .pressureSwitch]) ∧
     After (.lidOpen .afterSample) s (fun t => t.ilk.inForce == some .lidOpen && conditions t == [.lidOpen]) ∧
     s.tsq.peakOwed = false ∧
     After (.sampleTick {} (pressed 0xFFFF)) s (fun t => t.ilk.inForce == some .sensorRange && t.ilk.timer.ticks == 0)) ∧
    (let s := safe .overpressure
     After (.lidOpen .afterSample) s (fun t => t.ilk.inForce == some .overpressure && t.ilk.timer.ticks == 200 &&
       t.ilk.latched == [.overpressure, .lidOpen]) ∧
     After (.sampleTick {} (pressed 3)) s (fun t => t.ilk.inForce == some .overpressure && t.ilk.timer.ticks == 201 &&
       t.ilk.latched == [.overpressure, .sensorRange])) ∧
    (let s := { safe .lidOpen with
        tsq := { (safe .lidOpen).tsq with safeFrom := none, returnState := some .done }
        ilk := { (safe .lidOpen).ilk with pswArmed := true } }
     s.tsq.safeFrom = none ∧ After (.psw .afterSample) s (fun t => t.ilk.inForce == some .pressureSwitch && conditions t == []))
    := by decide +kernel
theorem witness_ResponseCompletes :
    ((safe .overpressure).vented = false ∧ nextOf (exec .responseComplete (safe .overpressure)) = some (safe .overpressure)) ∧
    (let s := low (safe .overpressure)
     s.params.tripDwell * 20 ≤ s.ilk.timer.ticks ∧ s.ilk.latched = [.overpressure] ∧ s.vented = true ∧
     After .responseComplete s (fun t => t.tsq.state == some .done && t.ilk.marks == [.overpressure] &&
       (t.tsq.docket.bind Docket.test).map TestPart.verdict == some .notTested)) ∧
    (let s := { low (safe .estop) with tsq := { (safe .estop).tsq with safeFrom := none, returnState := some .done } }
     s.tsq.safeFrom = none ∧ s.inputs.estop = false ∧
     After .responseComplete s (fun t => t.tsq.state == some .done && t.ilk.marks == [])) ∧
    (let s := { low (safe .estop) with ilk := { (safe .estop).ilk with latched := [.lidOpen, .estop] } }
     s.ilk.latched = [.lidOpen, .estop] ∧
     After .responseComplete s (fun t => t.ilk.inForce == some .lidOpen && t.tsq.state == some .safe) ∧
     (let s1 := { s with ilk := { s.ilk with latched := [.overband, .pressureSwitch], inForce := some .pressureSwitch },
                         msu := { pressRail := true } }
      After .responseComplete s1 (fun t => t.ilk.inForce == some .overband && t.ilk.marks == [.pressureSwitch] &&
        t.ilk.latched == [.overband]))) ∧
    (let s := { safe .estop with
        ilk := { (safe .estop).ilk with latched := [.aborted, .estop] }, msu := { pressRail := true } }
     s.vented = false ∧ Cause.estop.code ≤ Cause.aborted.code ∧
     After .responseComplete s (fun t => t.ilk.inForce == some .aborted && t.ilk.latched == [.aborted]) ∧
     After .responseComplete (low s) (fun t => t.ilk.inForce == none && t.ilk.latched == [] && t.tsq.state == some .done)) ∧
    (let s := low (safe .sensorRange)
     let out := fun (h : HeadState) => { s with tsq := { s.tsq with
       safeFrom := none, returnState := some h, gateFlag := true, caller := some 15, oosCause := some .unloadTimeout } }
     After .responseComplete (out .idle) (fun t => t.tsq.state == some .outOfService && t.tsq.oosCause == some .sensorRange) ∧
     After .responseComplete { out .idle with ilk := { (safe .leakDrop).ilk with timer := {} , inForce := some .leakDrop } }
       (fun t => t.tsq.state == some .idle) ∧
     After .responseComplete (out .unloading) (fun t => t.tsq.state == some .unloading && t.tsq.gateOpen &&
       t.tsq.caller == some 15) ∧
     After .responseComplete (out .outOfService) (fun t => t.tsq.state == some .outOfService &&
       t.tsq.oosCause == some .unloadTimeout) ∧
     After .responseComplete { out .unloading with tsq := { (out .unloading).tsq with gateFlag := false } }
       (fun t => !t.tsq.gateOpen && t.tsq.phase == none)) := by decide +kernel
theorem witness_HeadMovesOn :
    (head .loading 0).role = some .test ∧
    After (.seatActive (before { seat := true, psw := false })) (head .loading 0) (fun t =>
      t.tsq.state == some .filling && t.tsq.tickOpen && t.ilk.pswArmed && t.msu.pressure == some 16) ∧
    After (.fillComplete .afterSample) (head .idle 0) (fun t => t.tsq.state == some .idle && t.inputs.bleedWet) ∧
    nextOf (exec (.loadTimeout .afterSample) (head .loading 1201)) = some (head .loading 1201) ∧
    After (.loadTimeout (before {})) (head .loading 1199) (fun t => t.tsq.state == some .done) ∧
    nextOf (exec (.holdTimerExpiry .afterSample) (head .holding 599)) = some (head .holding 599) ∧
    nextOf (exec (.urgentFlagSet .afterSample) (head .waitRamp 602)) = some (head .waitRamp 602) ∧
    After (.seatActive .afterSample) (head .idle 0) (fun t => t.tsq.oosCause == some .orphan) ∧
    After (.seatActive .afterSample) (head .done 0) (fun t => t.tsq.state == some .done && t.inputs.seat) ∧
    After (.lidClosed .afterSample) (head .filling 0) (fun t => t.tsq.lidLock) ∧
    After (.fillComplete .afterSample) (head .filling 0) (fun t => t.tsq.state == some .zeroing && t.msu.window.skip == 10) ∧
    After (.loadTimeout .afterSample) (head .loading 1200) (fun t => t.tsq.state == some .done && t.tsq.doneUrgent) ∧
    nextOf (exec (.loadTimeout .afterSample) (head .loading 1199)) = some (head .loading 1199) ∧
    After (.drainTimerExpiry .afterSample) (head .draining 400) (fun t => t.tsq.state == some .done) ∧
    nextOf (exec (.drainTimerExpiry .afterSample) (head .draining 399)) = some (head .draining 399) ∧
    After (.holdTimerExpiry .afterSample) (head .holding 600) (fun t => t.msu.holdExpired) ∧
    After (.urgentFlagSet .afterSample) (head .waitRamp 601) (fun t => t.adm.urgent) ∧
    nextOf (exec (.urgentFlagSet .afterSample) (head .waitRamp 600)) = some (head .waitRamp 600) := by decide +kernel
/-- A head in UNLOADING with its gate open. -/
def unloading : State :=
  { head .unloading 900 with
    tsq := { (head .unloading 900).tsq with gateOpen := true, gateFlag := true, docket := none, caller := some 15 } }
/-- A head in OUT_OF_SERVICE with its CLEAR input armed. -/
def outOfService (c : Cause) (d : Option Docket) : State :=
  { head .outOfService 0 with
    tsq := { (head .outOfService 0).tsq with oosCause := some c, docket := d }
    ilk := { clearArmed := true } }
theorem witness_UnloadAndClear :
    (unloading.role = some .test ∧ unloading.tsq.gateOpen = true ∧ unloading.ilk.marks = [] ∧
      After (.unloadComplete .afterSample) unloading (fun t => t.tsq.state == some .idle && t.inputs.unloadClear) ∧
      After (.unloadComplete .afterSample) { unloading with ilk := { marks := [.sensorRange, .overpressure] } }
        (fun t => t.tsq.oosCause == some .overpressure) ∧
      After (.unloadComplete .afterSample) { unloading with ilk := { marks := [.pressureSwitch] } }
        (fun t => t.tsq.oosCause == some .pressureSwitch)) ∧
    (unloading.params.unloadTime * 20 = 900 ∧
      nextOf (exec (.unloadTimeout .afterSample) { unloading with tsq := { unloading.tsq with phase := some { ticks := 901 } } }) =
        some { unloading with tsq := { unloading.tsq with phase := some { ticks := 901 } } } ∧
      After (.unloadComplete .afterSample) (head .idle 0) (fun t => t.tsq.state == some .idle && t.inputs.unloadClear) ∧
      After (.unloadTimeout .afterSample) unloading (fun t => t.tsq.oosCause == some .unloadTimeout)) ∧
    (unloading.ilk.clearArmed = false ∧ nextOf (exec (.clearEdge .afterSample) unloading) = some unloading) ∧
    After (.clearEdge .afterSample) { unloading with ilk := { clearArmed := true } } (fun t => !t.ilk.clearArmed) ∧
    After (.clearEdge .afterSample) (outOfService .handoffFailed (some testDocket)) (fun t => t.tsq.state == some .done) ∧
    After (.clearEdge .afterSample) (outOfService .orphan none) (fun t => t.tsq.state == some .idle) ∧
    After (.clearEdge .afterSample) { outOfService .orphan none with inputs := { seat := true } }
      (fun t => t.tsq.state == some .outOfService) ∧
    After (.clearEdge .afterSample) (outOfService .unloadTimeout none) (fun t => t.tsq.state == some .outOfService) ∧
    After (.clearEdge .afterSample)
      { outOfService .overpressure none with ilk := { clearArmed := true, marks := [.overpressure, .pressureSwitch] } }
      (fun t => t.ilk.marks == [.overpressure] && t.tsq.state == some .outOfService) ∧
    After (.clearEdge (.beforeSample { clear := true } (pressed 0)))
      { outOfService .overpressure none with ilk := { clearArmed := true, marks := [.overpressure, .sensorRange] } }
      (fun t => t.ilk.marks == [.overpressure, .sensorRange] && t.tsq.state == some .outOfService) ∧
    After (.clearEdge (.beforeSample { clear := true } (pressed 20)))
      { outOfService .overpressure none with ilk := { clearArmed := true, marks := [.overpressure, .sensorRange] } }
      (fun t => t.ilk.marks == [] && t.tsq.state == some .idle) ∧
    After (.clearEdge (.beforeSample { clear := true } (pressed 20)))
      { outOfService .orphan none with inputs := { seat := true } } (fun t => t.tsq.state == some .idle) ∧
    After (.clearEdge (.beforeSample { clear := true } (pressed 0)))
      { outOfService .orphan none with ilk := { clearArmed := true, marks := [.sensorRange] } }
      (fun t => t.tsq.state == some .outOfService && t.tsq.oosCause == some .sensorRange) ∧
    After (.clearEdge .afterSample) { outOfService .unloadTimeout none with inputs := { unloadClear := true } }
      (fun t => t.tsq.state == some .idle) := by decide +kernel
theorem witness_SampleTickSenses :
    (roundDiv 775 2 = 388 ∧ roundDiv (-775) 2 = -388 ∧ roundDiv 774 2 = 387 ∧ roundDiv (-7) 4 = -2 ∧ roundDiv (-5) 4 = -1 ∧
      convertTemp { tOff := 8192, tGain := 512 } 25392 = 2150 ∧ convertTemp { tOff := 8192, tGain := 512 } 8188 = -1) ∧
    ((intake .ready).role = some .inspect ∧ After (.sampleTick { abort := true } (pressed 0)) (intake .ready) (fun t => t.inputs.abort)) ∧
    (let s := { running 2 15 with dsu := { arrival := [{ docket := directDocket, ticks := 2399 }, { docket := testDocket, ticks := 2400 }] } }
     s.role = some .dispose ∧ s.params.arrivalTime * 20 = 2400 ∧
     After (.sampleTick {} (pressed 0)) s (fun t => t.dsu.clearArmed && t.dsu.arrival.map Arrival.ticks == [2400, 2400])) ∧
    (head .idle 0).role = some .test ∧
    After (.sampleTick {} { pressed 100 with level := 65520 }) (head .idle 0) (fun t => t.msu.levelRail && !t.msu.tempRail &&
      t.msu.pressure == some 100) ∧
    After (.sampleTick {} { pressed 100 with temp := 15 }) (head .idle 0) (fun t => t.msu.tempRail && !t.msu.levelRail) ∧
    (openTick (.beforeSample { psw := true } (pressed 100)) (head .idle 0)).msu.pressure = some 100 ∧
    After (.sampleTick {} (pressed 15)) (head .idle 0) (fun t => t.msu.pressRail && t.msu.pressure.isNone && t.ilk.pswArmed) ∧
    After (.sampleTick { clear := true } (pressed 16)) (head .idle 0) (fun t => !t.msu.pressRail &&
      t.msu.pressure == some 16 && !t.ilk.clearArmed) ∧
    After (.sampleTick {} (pressed 100)) { head .idle 0 with params := { ({} : Params) with pOff := 100 } }
      (fun t => t.msu.pressure == some 0) ∧
    (let s := head .filling 4799
     let t := { head .filling 4800 with ilk := { disarmed := [.fillTimeout, .overband, .estop] } }
     s.params.fillTime * 20 = 4800 ∧
     After (.fillTimeout (before {})) s (fun u => u.ilk.expired == some .fillTimeout) ∧
     After (.fillTimeout .afterSample) (head .filling 4800) (fun u => u.ilk.expired == none) ∧
     After (.sampleTick { estop := true } (pressed 100)) t (fun u => u.ilk.disarmed == [.estop]) ∧
     After (.sampleTick {} (pressed 100)) { t with ilk := { t.ilk with expired := some .fillTimeout } } (fun u =>
       u.ilk.disarmed == [.fillTimeout] && u.ilk.expired == none) ∧
     (head .ramping 1799).params.rampTime * 20 = 1800 ∧
     After (.rampTimeout (before {})) (head .ramping 1799) (fun u => u.ilk.expired == some .rampTimeout)) := by
  decide +kernel
theorem witness_SamplesDriveRampHoldVent :
    (head .ramping 3).msu.limits = some { top := 20600, cond := 22000, low := 19800 } ∧
    convertPressure (head .ramping 3).params 19999 = 19999 ∧
    After (.sampleTick {} (pressed 19999)) (head .ramping 3) (fun t => t.tsq.state == some .ramping) ∧
    Cause.sensorRange ∉ (head .ramping 3).ilk.disarmed ∧
    After (.sampleTick {} { pressed 19999 with temp := 15 }) (head .ramping 3) (fun t =>
      t.ilk.inForce == some .sensorRange && t.tsq.safeFrom == some .ramping) ∧
    After (.sampleTick {} { pressed 20601 with temp := 15 }) (head .holding 3) (fun t =>
      t.ilk.inForce == some .sensorRange && conditions t == [.sensorRange, .overband]) ∧
    After (.sampleTick {} (pressed 20000)) (head .ramping 3) (fun t => t.tsq.state == some .holding && t.msu.holdCount == 1) ∧
    After (.sampleTick {} (pressed 22000)) (head .holding 3) (fun t => t.ilk.inForce == some .overpressure &&
      conditions t == [.overpressure, .overband]) ∧
    After (.sampleTick {} (pressed 22000)) (head .ramping 3) (fun t => t.ilk.inForce == some .overpressure &&
      conditions t == [.overpressure, .overband] && t.tsq.safeFrom == some .holding &&
      ((t.tsq.docket.bind Docket.test).bind TestPart.holdMean) == some 22000) ∧
    After (.sampleTick { seat := true } (pressed 49)) (head .holding 3) (fun t => t.tsq.state == some .draining &&
      t.ilk.inForce == none && (t.tsq.docket.bind Docket.test).map TestPart.cause == some (some .leakDrop)) ∧
    After (.sampleTick {} (pressed 20601)) (head .holding 3) (fun t => t.ilk.inForce == some .overband) ∧
    After (.sampleTick {} (pressed 19799)) (head .holding 3) (fun t => t.ilk.inForce == some .leakDrop) ∧
    (let s := { head .holding 600 with msu := { (head .holding 600).msu with
        holdExpired := true, window := { count := 15, reference := 10000, levelSum := 150000, tempSum := 30000 } } }
     After (.sampleTick {} (pressed 20000)) s (fun t => t.tsq.state == some .venting &&
       ((t.tsq.docket.bind Docket.test).map TestPart.st) == some (some 160000))) ∧
    (let s := { head .holding 3 with msu := { (head .holding 3).msu with window := { skip := 1 } } }
     After (.sampleTick {} (pressed 20600)) s (fun t => t.tsq.state == some .holding && t.msu.window.skip == 0)) ∧
    After (.sampleTick {} (pressed 49)) (head .venting 3) (fun t => t.tsq.state == some .settling && t.msu.window.skip == 10) ∧
    After (.sampleTick {} (pressed 50)) (head .venting 3) (fun t => t.tsq.state == some .venting) ∧
    (let peak := fun t : State => (t.tsq.docket.bind Docket.test).map TestPart.peak
     let o := TickOrder.beforeSample {} (pressed 20700)
     let s := head .ramping 1799
     s.ilk.inForce = none ∧ s.ilk.latched = [] ∧
     After (.rampTimeout o) s (fun u => u.tsq.state == some .safe && u.tsq.peakOwed && peak u == some 0 &&
       After (.sampleTick {} (pressed 20700)) u (fun t => t.tsq.state == some .safe && !t.tsq.peakOwed &&
         peak t == some 20700 && t.ilk.latched == [.rampTimeout] && conditions t == [.rampTimeout]) &&
       After (.sampleTick {} (pressed 15)) u (fun t => peak t == some 0 && t.ilk.inForce == some .sensorRange)) ∧
     After (.abort (.beforeSample { abort := true } (pressed 49)))
         { head .holding 3 with ilk := { abortArmed := true } } (fun u =>
       u.tsq.state == some .done && u.tsq.peakOwed &&
       After (.sampleTick {} (pressed 49)) u (fun t => peak t == some 49 && t.msu.holdCount == 0)) ∧
     (let u := { head .safe 0 with
        tsq := { (head .safe 0).tsq with safeFrom := some .ramping, phase := none, peakOwed := true }
        ilk := { latched := [.rampTimeout], disarmed := [.rampTimeout], inForce := some .rampTimeout } }
      SafeMatchesResponse u ∧ After (.sampleTick {} (pressed 20700)) u (fun t => peak t == some 20700 &&
        t.ilk.inForce == some .rampTimeout && t.msu.pressure == some 20700))) := by
  unfold SafeMatchesResponse
  decide +kernel
/-- A head in a reading phase with a window. -/
def window (h : HeadState) (w : Window) : State := { head h 20 with msu := { (head h 20).msu with window := w } }
/-- A window of fifteen samples, with some crossings. -/
def fifteen (crossings failures : Nat) (temp : Int) : Window :=
  { count := 15, reference := 10000, crossings := crossings, levelSum := 150000, tempSum := temp, failures := failures }
theorem witness_WindowsGiveReadings :
    (window .zeroing { skip := 1 }).tsq.peakOwed = false ∧ (window .zeroing { skip := 1 }).msu.window.shut = false ∧
    (window .zeroing { skip := 1 }).tsq.phase = some { ticks := 20, fresh := false } ∧
    After (.sampleTick {} (pressed 100)) (window .zeroing { skip := 1 }) (fun t => t.msu.window == {}) ∧
    After (.sampleTick {} (pressed 100)) (window .zeroing {}) (fun t => t.msu.window.reference == 10000) ∧
    After (.sampleTick {} (pressed 100)) (window .settling { count := 14, reference := 9991 }) (fun t =>
      t.msu.window.count == 15 && t.msu.window.crossings == 1) ∧
    After (.sampleTick {} (pressed 100)) (window .zeroing (fifteen 3 6 30000)) (fun t => t.msu.window.failures == 7) ∧
    After (.sampleTick {} (pressed 100)) (window .zeroing (fifteen 3 7 30000)) (fun t => t.ilk.inForce == some .unsettled) ∧
    After (.sampleTick {} (pressed 100)) (window .settling (fifteen 2 0 78100)) (fun t => t.ilk.inForce == some .tempRange) ∧
    After (.sampleTick {} (pressed 49)) (window .zeroing (fifteen 3 7 30000)) (fun t => t.tsq.state == some .done &&
      t.ilk.inForce == none && (t.tsq.docket.bind Docket.test).map TestPart.cause == some (some .unsettled)) ∧
    After (.sampleTick { seat := true } (pressed 49)) (window .settling (fifteen 2 0 78100)) (fun t =>
      t.tsq.state == some .draining && (t.tsq.docket.bind Docket.test).map TestPart.cause == some (some .tempRange)) ∧
    After (.sampleTick {} (pressed 100)) (window .zeroing (fifteen 2 0 78000)) (fun t => t.tsq.state == some .waitRamp) ∧
    After (.sampleTick {} (pressed 100)) (window .settling (fifteen 2 0 30000)) (fun t => t.tsq.state == some .draining) ∧
    (let hold := fun w => { window .holding w with msu := { (window .holding w).msu with holdExpired := true } }
     (hold {}).msu.limits = some { top := 20600, cond := 22000, low := 19800 } ∧
     convertPressure (hold {}).params 20000 = 20000 ∧ (hold {}).tsq.peakOwed = false ∧
     After (.sampleTick {} (pressed 20000)) (window .holding {}) (fun t => t.msu.window == {} && t.msu.holdCount == 1) ∧
     After (.sampleTick {} (pressed 20000)) { window .holding {} with tsq := (head .holding 599).tsq } (fun t =>
       t.msu.window.count == 1) ∧
     After (.sampleTick {} (pressed 20000)) (hold (fifteen 3 2 30000)) (fun t => t.tsq.state == some .holding &&
       t.msu.window.failures == 3) ∧
     After (.sampleTick {} (pressed 20000)) (hold (fifteen 3 3 30000)) (fun t => t.ilk.inForce == some .creep) ∧
     After (.sampleTick {} (pressed 20000)) (hold (fifteen 2 0 78100)) (fun t => t.ilk.inForce == some .tempRange) ∧
     After (.sampleTick {} (pressed 20000)) (hold (fifteen 2 0 30000)) (fun t => t.tsq.state == some .venting)) := by
  decide +kernel
theorem witness_ExpansionArithmeticSteps :
    (readings 160600 163100).s0 = some 160000 ∧ (readings 160600 163100).tp = some 2166 ∧
    (arithmetic worked testDocket (readings 160600 163100)).et = some 47 ∧
    (arithmetic { worked with nUnder := 40 } testDocket (readings 209800 159920)).ep = none ∧
    (arithmetic worked testDocket (readings 209800 210000)).ep = some 6212 ∧
    (arithmetic worked testDocket (readings 209800 165600)).ratio = some 1068 ∧
    (arithmetic worked { testDocket with ree := some 5800 } (readings 209800 163100)).verdict = .condemn ∧
    (arithmetic worked testDocket (readings 209800 163100)).verdict = .pass := by decide +kernel
theorem witness_RepeatRuleCondemns :
    let d := { testDocket with retest := true }
    let y : TestPart := { head := 5, conditions := [.leakDrop] }
    (assembleVerdict worked { d with retest := false } y).cause = some .leakDrop ∧
    (assembleVerdict worked { d with retest := false } y).verdict = .invalid ∧
    (assembleVerdict worked d y).verdict = .condemn ∧ (assembleVerdict worked d y).cause = some .repeatInvalid ∧
    (assembleVerdict worked d { y with conditions := [.lidOpen] }).verdict = .invalid ∧
    (assembleVerdict worked d { y with conditions := [.leakDrop, .overpressure] }).cause = some .overpressure ∧
    (assembleVerdict worked testDocket (readings 209800 163100)).verdict = .pass ∧ testDocket.retest = false := by
  decide +kernel

/-! ### Witnesses: intake -/

/-- INSPECT with a docket in work. -/
def inspecting (d : Docket) : State := { intake .inspecting with ieu := { (intake .inspecting).ieu with work := some d } }
/-- The last line that waits on port B. -/
def answer (s : State) : Option Reply := s.ports.waiting.getLast?

theorem witness_IntakeStopsAndMoves :
    (let s := { intake .ready with ieu := { (intake .ready).ieu with stage := .pulsing .stageIn }, txq := [contending .docketOffer] }
     s.role = some .inspect ∧ s.lif.roleConflict = false ∧ s.ilk.stopFlag = false ∧ s.sending = false ∧
     After .stopReported s (fun t => t.ieu.state == .estop && t.ieu.stage == .owed .stageIn && t.txq == []) ∧
     (let busy := winner .docketOffer s .accept
      busy.sending = true ∧ After .stopReported busy (fun t => t.txq.map TxMsg.withdraw == [true])) ∧
     nextOf (exec .infeedClear { intake .estop with ieu := { (intake .estop).ieu with left := .purge } }) =
       some { intake .estop with ieu := { (intake .estop).ieu with left := .purge } } ∧
     nextOf (exec .stopEnded s) = some s ∧
     After (.pulseEnd .stage) s (fun t => t.ieu.stage == .idle) ∧ s.ieu.state ≠ .purge ∧ s.ports.waiting = []) ∧
    (let s := { intake .estop with
       ieu := { (intake .estop).ieu with left := .ready, stage := .owed .stageIn, directFault := true }, ilk := { stopFlag := true } }
     s.ieu.left ≠ .estop ∧
     After .stopEnded s (fun t => t.ieu.state == .infeedFull && t.ieu.stage == .pulsing .stageIn)) ∧
    After .infeedClear (intake .purge) (fun t => t.ieu.state == .ready) ∧
    After .terminalReplySent { intake .ready with ports := { waiting := [.busy, .ok] } } (fun t =>
      t.ports.trmSent == some (ascii "BUSY" ++ [0x0A]) && t.ports.waiting == [.ok]) := by decide +kernel
theorem witness_ReaderLineTaken :
    let l := line "QBX;77-0042;1;20000;50;5000;03/15;05"
    lineHanded l = true ∧ readerFault (assembleLine 64 l) = none ∧ readerDocket (assembleLine 64 l) = rawDocket ∧
    (readerFields (assembleLine 64 l)).length = 8 ∧
    After (.readerLine l) (intake .ready) (fun t => t.ieu.work == some rawDocket && t.ieu.state == .inspecting &&
      answer t == some (.okId (ascii "QBX") (ascii "77-0042"))) ∧
    readerFault (assembleLine 64 (line "QBX;77;9")) = some 3 ∧
    [("QB;77", 1), ("QBX;7_7", 2), ("QBX;77;1;499", 4), ("QBX;77;1;20000;4", 5), ("QBX;77;1;20000;50;49", 6),
     ("QBX;77;1;20000;50;5000;13/15", 7), ("QBX;77;1;20000;50;5000;03/15;5", 8), ("QBX;77;1;20000;50;5000;03/15;05;0", 9),
     ("QBX;77;1;20000;50;5000;03/15;05;1;", 10)].all
      (fun c => readerFault (assembleLine 64 (line c.1)) == some c.2) = true ∧
    After (.readerLine (line "QBX;77;9")) (intake .ready) (fun t => answer t == some (.idRejected 3)) ∧
    After (.readerLine l) (intake .purge) (fun t => answer t == some .busy && t.ieu.work.isNone) := by decide +kernel
theorem witness_MassAndClearEntries :
    lineHanded (line "MASS 45000") = true ∧ entryArgs (assembleLine 32 (line "MASS 45000")) = [ascii "45000"] ∧
    (assembleLine 32 (line "MASS 45000")).badAt = none ∧ (inspecting rawDocket).ieu.closePending = false ∧
    After (.mass (line "MASS 45000")) (inspecting rawDocket) (fun t =>
      answer t == some (.okMass 30000) && t.ieu.work == some { rawDocket with mass := some 30000 }) ∧
    After (.mass (line "MASS 0")) (inspecting rawDocket) (fun t => answer t == some (.okMass 1)) ∧
    After (.mass (line "MASS 12345678")) (inspecting rawDocket) (fun t => answer t == some .errSyntax) ∧
    entryArgs (assembleLine 32 (line "CLEAR")) = [] ∧
    After (.clearEntry (line "CLEAR")) { intake .infeedFull with ieu := { (intake .infeedFull).ieu with directFault := true } }
      (fun t => answer t == some .ok && t.ieu.state == .ready) ∧
    After (.clearEntry (line "CLEAR")) (intake .ready) (fun t => answer t == some .errNoFault) := by decide +kernel
theorem witness_TerminalEntries :
    After (.find (line "FIND DENT MINOR")) (intake .estop) (fun t => answer t == some .busy) ∧
    After (.unknownKeyword (line "HELLO")) (intake .ready) (fun t => answer t == some .errSyntax) ∧
    (assembleLine 32 { chars := [{ code := 0x07 }] }).badAt.isSome = true ∧
    After (.cancel { chars := [{ code := 0x07 }] }) (intake .ready) (fun t => answer t == some .errSyntax) ∧
    [Instr.period (line "PERIOD 1/2099"), .period (line "PERIOD"), .mass (line "MASS"), .find (line "FIND DENT"),
     .find (line "FIND DENT BAD"), .close (line "CLOSE 1"), .cancel (line "CANCEL 1"), .clearEntry (line "CLEAR 1")].all
      (fun i => After i (intake .ready) (fun t => answer t == some .errSyntax)) = true ∧
    After (.mass (line "MASS 5")) (intake .ready) (fun t => answer t == some .errState) ∧
    After (.close (line "CLOSE")) (intake .ready) (fun t => answer t == some .errState) ∧
    entryArgs (assembleLine 32 (line "FIND  MINOR")) = [[], ascii "MINOR"] ∧
    entryArgs (assembleLine 32 (line "PERIOD 12/2099")) = [ascii "12/2099"] ∧ (ascii "12/2099").length = 7 ∧
    After (.period (line "PERIOD 12/2099")) (intake .noPeriod) (fun t => t.ieu.state == .ready &&
      t.ieu.period == some { month := 12, year := 2099 }) ∧
    After (.period (line "PERIOD 13/2099")) (intake .noPeriod) (fun t => answer t == some .errRange) ∧
    FindingCode.fire.name = ascii "FIRE" ∧ FindingCode.all.all (fun c => c.name != ascii "RUST") = true ∧
    After (.find (line "FIND FIRE MINOR")) (inspecting rawDocket) (fun t => answer t == some .ok &&
      t.ieu.work == some { rawDocket with findings := [{ code := .fire, severity := some .condemn }] }) ∧
    After (.find (line "FIND RUST MINOR")) (inspecting rawDocket) (fun t => answer t == some .errCode) ∧
    After (.find (line "FIND DENT MINOR"))
      (inspecting { rawDocket with findings := List.replicate 6 { code := .dent, severity := some .minor } })
      (fun t => answer t == some .full) ∧
    After (.find (line "FIND DENT MINOR")) (intake .ready) (fun t => answer t == some .errState) ∧
    (let s := { inspecting rawDocket with ieu := { (inspecting rawDocket).ieu with closePending := true } }
     s.ports.waiting.length < 3 ∧ After (.find (line "FIND DENT MINOR")) s (fun t => answer t == some .busy) ∧
     After (.mass (line "MASS 5")) s (fun t => answer t == some .busy) ∧
     After (.close (line "CLOSE")) s (fun t => answer t == some .busy) ∧
     After (.cancel (line "CANCEL")) s (fun t => t.ports.waiting == [.errCancelled, .ok] && t.ieu.state == .ready)) ∧
    After (.cancel (line "CANCEL")) (inspecting rawDocket) (fun t => answer t == some .ok && t.ieu.work.isNone) ∧
    After (.cancel (line "CANCEL")) (intake .ready) (fun t => answer t == some .errState) := by decide +kernel
/-- INSPECT with class 1 defined, and a head on the line. -/
def evaluating (d : Docket) : State :=
  let c : ClassEntry := { defined := true, intervalYears := 5, holdTime := 30, ratioLimit := 1000, massLossLimit := 500 }
  { inspecting d with params := { ({} : Params) with classes := List.replicate 8 c }, pvt := views 1 0 }
theorem witness_CloseEvaluatesAndJoins :
    lineHanded (line "CLOSE") = true ∧ entryArgs (assembleLine 32 (line "CLOSE")) = [] ∧
    (evaluating rawDocket).ieu.period.isSome = true ∧
    After (.close (line "CLOSE")) (evaluating rawDocket) (fun t => answer t == some .errNoMass && t.ieu.work.isSome) ∧
    After (.close (line "CLOSE")) (evaluating { rawDocket with mass := some 4990 }) (fun t =>
      answer t == some (.okJoin 1 .test none) && t.ieu.infeed.length == 1 && t.ieu.stage == .pulsing .stageIn &&
      t.ieu.tagCounter == 2 && t.ieu.state == .ready) ∧
    (let s := { evaluating { rawDocket with mass := some 4990 } with
        ieu := { (inspecting { rawDocket with mass := some 4990 }).ieu with stage := .pulsing .stageBy } }
     s.ieu.stage ≠ .idle ∧ After (.close (line "CLOSE")) s (fun t => t.ieu.closePending && t.ports.waiting == [])) ∧
    (let s := evaluating { rawDocket with mass := some 4990 }
     s.lif.state ≠ .addressConflict ∧
     (let conflict := { s with lif := { s.lif with state := .addressConflict } }
      After (.close (line "CLOSE")) conflict (fun t => answer t == some .busy && t.ieu == conflict.ieu &&
        t.history == conflict.history)) ∧
     -- a card that came in the round in progress is not seen yet
     (let late := { s with lif := { s.lif with state := .inRound, round := { cardFrom := some 5 } } }
      late.covered rawDocket = true ∧ late.coveredSettled rawDocket = false ∧
      After (.close (line "CLOSE")) late (fun t => answer t == some (.okJoin 1 .hold (some .noHead)))) ∧
     -- an infeed pulse toward the bypass keeps a docket that goes there
     (let divert := { s with pvt := [], ieu := { s.ieu with infeedCh := .pulsing .infeedDivert } }
      After (.close (line "CLOSE")) divert (fun t => t.ieu.closePending && t.ports.waiting == []))) ∧
    [(2026, 27, 2027), (2026, 35, 2035), (2026, 36, 1936), (2000, 9, 2009), (2000, 10, 1910)].all
      (fun c => expandYear c.1 c.2.1 == c.2.2) = true ∧
    badDate { month := 2, year := 2015 } rawDocket = true ∧ badDate { month := 3, year := 2015 } rawDocket = false ∧
    notDue {} { month := 11, year := 2019 } { defined := true, intervalYears := 5 } rawDocket = true ∧
    notDue {} { month := 12, year := 2019 } { defined := true, intervalYears := 5 } rawDocket = false ∧
    (let s := { inspecting directDocket with ieu := { (inspecting directDocket).ieu with closePending := true, tagCounter := 65535 } }
     s.ieu.closePending = true ∧ s.ieu.stage = .idle ∧ s.ieu.direct.length < 4 ∧
     After .docketJoin s (fun t => answer t == some (.okJoin 65535 .hold (some .badDate)) && t.ieu.direct.length == 1 &&
       t.ieu.tagCounter == 1) ∧
     nextOf (exec .docketJoin { s with ieu := { s.ieu with stage := .pulsing .stageIn } }) =
       some { s with ieu := { s.ieu with stage := .pulsing .stageIn } } ∧
     (let full := { s with ieu := { s.ieu with direct := List.replicate 4 directDocket } }
      nextOf (exec .docketJoin full) = some full) ∧
     (let divert := { s with ieu := { s.ieu with infeedCh := .owed .infeedDivert } }
      nextOf (exec .docketJoin divert) = some divert)) := by decide +kernel
theorem witness_SerialNumericValue :
    (ascii "0042").all isDigit = true ∧ (ascii "A7-").getLast? = some 0x2D ∧ isDigit 0x2D = false ∧
    (let e : LotEntry := { valid := true, serial := some (40, 42) }
     lotEntryMatches e rawDocket = true ∧ lotEntryMatches { e with serial := some (43, 50) } rawDocket = false ∧
     lotMatch [{}, { e with cls := some 2 }, e, { e with condemn := true }] rawDocket = some (2, e) ∧
     lotMatch [{ e with valid := false }] rawDocket = none ∧
     (evaluatedDocket { head .idle 0 with params := { lots := [{}, e] } } { month := 3, year := 2025 } 1400 none
       rawDocket).lotEntry = some 1) := by decide +kernel
/-- A set of the history with both ways held. -/
def fullSet : HistSet :=
  { way0 := { valid := true, hash := 0x29B1, disposition := .returned, invalidCount := 2, stamp := 5 }
    way1 := { valid := true, hash := 0x1111, disposition := .scrapped, stamp := 9 }, lru1 := true }
theorem witness_HistoryLookupAndNotes :
    fullSet.OneWayPerHash ∧ fullSet.findWay 0x29B1 = some false ∧ (lookupSet fullSet 0x29B1 2147483652).2.isSome = true ∧
    (lookupSet fullSet 0x29B1 2147483653).2 = none ∧ fullSet.findWay 0x3331 = none ∧
    ((noteSet fullSet { hash := 0x3331, disposition := .held, invalid := false, tag := 1 } 7).way true).hash = 0x3331 ∧
    ((noteSet fullSet { hash := 0x29B1, disposition := .returned, invalid := true, tag := 1 } 7).way false).invalidCount = 2 ∧
    noteHistory [fullSet] { hash := 0x29B0, disposition := .missing, invalid := false, tag := 1 } 7 = [fullSet] := by
  unfold HistSet.OneWayPerHash
  decide +kernel

/-! ### Witnesses: disposal -/

/-- DISPOSE with a docket in the arrival queue. -/
def waiting (d : Docket) : State := { running 2 15 with dsu := { arrival := [{ docket := d }] } }
/-- A docket for test with a verdict. -/
def judged (v : Verdict) : Docket := { testDocket with test := some { head := 5, verdict := v } }
theorem witness_MarkingReaderTakes :
    let l := line "QBX;77-0042"
    lineHanded l = true ∧ markIdentity (assembleLine 64 l) = some (ascii "QBX", ascii "77-0042") ∧
    markReady (waiting directDocket) = true ∧ markIdentity (assembleLine 64 (line "QBX")) = none ∧
    markReady (disposal .lane) = false ∧ (running 2 15).dsu.arrival = [] ∧
    After (.markReaderLine l) (running 2 15) (fun t => t.dsu.lane == 3 && laneRelease t && t.dsu.recBuffer.length == 1) ∧
    After (.markReaderLine l) (waiting (judged .pass)) (fun t => t.dsu.inPhase (.marking .clear) && t.dsu.arrival == []) ∧
    After (.markReaderLine l) (waiting (judged .condemn)) (fun t => t.dsu.punchPulse && t.dsu.inPhase .punching) ∧
    After (.markReaderLine l) (waiting (judged .invalid)) (fun t => t.dsu.lane == 2 && t.hasMsg .verdictNote) ∧
    After (.markReaderLine l) (waiting { directDocket with intent := some .scrap }) (fun t => t.dsu.punchPulse) ∧
    After (.markReaderLine l) (waiting { directDocket with intent := some .ret }) (fun t => t.dsu.lane == 2) ∧
    After (.markReaderLine l) (waiting directDocket) (fun t => t.dsu.lane == 3) ∧
    After (.markReaderLine l) (waiting { directDocket with intent := some .passThrough }) (fun t => t.dsu.inPhase .lane) := by
  decide +kernel
/-- DISPOSE in an exchange of the marking sequence, with a sequence count. -/
def atStep (k : MarkStep) (seq : Nat) : State :=
  { disposal (.marking k) with dsu := { (disposal (.marking k)).dsu with linkSeq := seq, baseCount := 255 } }
/-- A reply word. -/
def linkReply (state loaded seq strikes : Nat) : BitVec 24 := linkWord state loaded (BitVec.ofNat 8 seq) strikes
theorem witness_MarkingLinkSequence :
    (atStep .clear 0).dsu.workDocket = some testDocket ∧ (stampText (atStep .clear 0).params.plantMark testDocket).length = 7 ∧
    After (.linkClear (.word (linkReply 1 0 0 41) true)) (atStep .clear 9) (fun t => t.dsu.inPhase (.marking (.load 0)) && t.dsu.linkSeq == 1) ∧
    After (.linkLoad (.word (linkReply 2 7 7 41) true)) (atStep (.load 6) 7) (fun t => t.dsu.inPhase (.marking .query)) ∧
    After (.linkQuery (.word (linkReply 2 7 8 41) true)) (atStep .query 8) (fun t => t.dsu.inPhase (.marking .strike) && t.dsu.baseCount == 41) ∧
    After (.linkQuery (.word (linkReply 2 6 8 41) true)) (atStep .query 8) (fun t => t.dsu.halt == some .markFault) ∧
    After (.linkStrike (.word (linkReply 3 7 9 41) true)) (atStep .strike 9) (fun t => t.dsu.inPhase (.marking .poll) && t.dsu.strike == .running) ∧
    After (.linkQuery (.word (linkReply 3 7 10 0) true)) (atStep .poll 10) (fun t => t.dsu.inPhase (.marking .poll)) ∧
    After (.linkQuery (.word (linkReply 4 7 11 0) true)) (atStep .poll 11) (fun t => t.dsu.inPhase .lane && t.dsu.halt.isNone &&
      t.dsu.recBuffer.length == 1) ∧
    After (.linkQuery (.word (linkReply 4 7 11 1) true)) (atStep .poll 11) (fun t => t.dsu.halt == some .markFault && t.dsu.lane == 3) ∧
    After (.linkQuery .silent) (atStep .poll 11) (fun t => t.dsu.halt == some .markerSilent) ∧
    After (.linkLoad (.word (linkReply 5 0 7 0) true)) (atStep (.load 6) 7) (fun t => t.dsu.halt == some .markFault) ∧
    After (.linkStrike .stopped) (atStep .strike 9) (fun t => t.freeCount == 1 && t.dsu.inPhase (.marking .strike)) ∧
    After .strikeTimeout { atStep .poll 11 with dsu := { (atStep .poll 11).dsu with strike := .running } }
      (fun t => t.dsu.halt == some .markFault) ∧
    (atStep .poll 11).dsu.strike ≠ .running := by decide +kernel
theorem witness_PunchLaneAndRecord :
    (let s := { disposal .punching with dsu := { (disposal .punching).dsu with punchTimer := .running, punchPulse := true } }
     After .punchDone s (fun t => t.dsu.lane == 1 && t.dsu.inPhase .lane && t.dsu.punchPulse) ∧
     After .punchTimeout s (fun t => t.dsu.halt == some .punchFault && t.dsu.inPhase .punchRetry) ∧
     After .punchPulseEnd s (fun t => !t.dsu.punchPulse) ∧
     After .stopReported s (fun t => t.dsu.inPhase .punchOwed && !t.dsu.punchPulse)) ∧
    (disposal .lane).dsu.inPhase .punching = false ∧
    After .laneReleaseEnd (disposal .lane) (fun t => t.dsu.inPhase .gone) ∧
    After .laneReleaseEnd { running 2 15 with dsu := { work := some { item := .finished, phase := .lane } } } (fun t => t.dsu.work.isNone) ∧
    (let s := { running 2 15 with dsu := { recBuffer := [.stray (ascii "AAA") (ascii "1")] } }
     After (.recordLineSent true) s (fun t => t.dsu.recBuffer == [] && t.ports.recCts &&
       t.ports.recSent == some (ascii "DKT;0;AAA;1;;;;;;;;;;;;HELD;STRAY" ++ [0x0A])) ∧
     nextOf (exec (.recordLineSent false) { s with ports := { recCts := true } }) = some s) ∧
    After (.recordLineSent true) (running 2 15) (fun t => t.ports.recCts && t.ports.recSent == none) ∧
    After (.recordLineSent true) { busyDisposal with
        dsu := { busyDisposal.dsu with recWaiters := [{ line := .docket { testDocket with disposal := some { disposition := .stamped, cause := none } }, source := .work }] } }
      (fun t => t.dsu.work.isNone && t.dsu.recWaiters == [] && t.hasMsg .verdictNote) ∧
    (let full : List RecLine := List.replicate 4 (.stray (ascii "AAA") (ascii "1"))
     let card : Waiter := { line := .card 5 { role := .inspect, cause := .pin, clamped := false, head := none }, source := .card 5 }
     let stray : Waiter := { line := .stray (ascii "BBB") (ascii "2"), source := .stray }
     let decided := { testDocket with disposal := some { disposition := .stamped, cause := none } }
     let lost := { directDocket with disposal := some { disposition := .missing, cause := some .missing } }
     let s := { disposal .laneOwed with
       dsu := { (disposal .laneOwed).dsu with recBuffer := full, arrival := [{ docket := testDocket }, { docket := { lost with serial := ascii "5" }, missing := true }] } }
     let waits := fun l => { s with dsu := { s.dsu with recWaiters := l } }
     let missing : Waiter := { line := .docket { lost with serial := ascii "5" }, source := .queued lost.mfr (ascii "5") }
     After (.recordLineSent true) (waits [card, stray]) (fun t => t.dsu.recBuffer == full.tail ++ [card.line] &&
       t.dsu.recWaiters == [stray] && t.txq == []) ∧
     After (.recordLineSent true) (waits [stray, card]) (fun t => t.dsu.recBuffer == full.tail ++ [stray.line] &&
       t.dsu.recWaiters == [card]) ∧
     After (.recordLineSent true) (waits [{ line := .docket decided, source := .work }, card]) (fun t =>
       t.dsu.work == some { item := .finished, phase := .laneOwed } && t.dsu.recWaiters == [card] && t.hasMsg .verdictNote) ∧
     (waits [missing, card]).dsu.arrival.map (fun a => a.docket.serial) = [ascii "77-0042", ascii "5"] ∧
     After (.recordLineSent true) (waits [missing, card]) (fun t => t.dsu.arrival.map Arrival.docket == [testDocket] &&
       t.dsu.recWaiters == [card] && t.hasMsg .verdictNote)) ∧
    After .callTimeout calling (fun t => t.dsu.call.isNone) ∧
    After .callTimeout { winner .releaseCall calling .window with dsu := calling.dsu } (fun t =>
      t.dsu.call == some { head := 5, timer := .expired }) ∧
    (let s := { running 2 15 with dsu := { arrival := [{ docket := testDocket, ticks := 7 }, { docket := { directDocket with serial := ascii "1" }, ticks := 2400 }] } }
     s.dsu.arrival[1]?.map Arrival.ticks = some 2400 ∧
     After (.arrivalTimeout 1) s (fun t => t.dsu.arrival.length == 1 && t.dsu.recBuffer.length == 1 &&
       t.txq.map TxMsg.body == [noteBody { hash := directDocket.hash, disposition := .missing, invalid := false, tag := 9 }]) ∧
     After (.arrivalTimeout 1) { s with dsu := { s.dsu with recBuffer := busyDisposal.dsu.recBuffer } } (fun t =>
       t.dsu.arrival.map Arrival.missing == [false, true]) ∧
     nextOf (exec (.arrivalTimeout 0) s) = some s) ∧
    After .stopReported (atStep .strike 9) (fun t => t.dsu.inPhase .laneOwed && t.dsu.lane == 3 && t.dsu.halt.isNone) ∧
    After .stopReported (disposal .lane) (fun t => t.dsu.inPhase .laneOwed) ∧
    After .stopReported (running 2 15) (fun t => t.dsu.stopCopy && t.ilk.stopFlag) ∧
    [ActionPhase.gone, .punchRetry].all (fun p =>
      After .stopReported (disposal p) (fun t => t.dsu.work == (disposal p).dsu.work && t.dsu.stopCopy) &&
      After .stopEnded { disposal p with ilk := { stopFlag := true } } (fun t =>
        t.dsu.work == (disposal p).dsu.work && !t.ilk.stopFlag)) = true ∧
    (let stopped := fun p => { disposal p with ilk := { stopFlag := true }, dsu := { (disposal p).dsu with stopCopy := true } }
     After .stopEnded (stopped .punchOwed) (fun t => t.dsu.inPhase .punching && t.dsu.punchPulse) ∧
     After .stopEnded (stopped .laneOwed) (fun t => t.dsu.inPhase .lane)) ∧
    (let s := { disposal .punchRetry with dsu := { (disposal .punchRetry).dsu with clearArmed := true, halt := some .punchFault } }
     After (.disposeClear (.word (linkReply 1 0 0 41) true)) s (fun t => t.dsu.halt.isNone && t.dsu.inPhase .punching) ∧
     After (.disposeClear .silent) s (fun t => t.dsu.halt == some .markerSilent && t.dsu.inPhase .punchRetry) ∧
     After (.disposeClear (.word (linkReply 5 0 0 41) true)) s (fun t => t.dsu.halt == some .markFault) ∧
     After (.disposeClear (.word (linkReply 1 0 0 41) false)) s (fun t => t.dsu.halt == some .markFault) ∧
     After (.disposeClear (.word (linkReply 1 0 1 41) true)) s (fun t => t.dsu.halt == some .markFault) ∧
     After (.disposeClear (.word (linkWord 1 0 0xFF 0) true)) s (fun t => t.dsu.halt == some .markerSilent) ∧
     After (.disposeClear .stopped) s (fun t => t.dsu.halt == some .punchFault && t.freeCount == 1) ∧
     After (.disposeClear .silent) { s with dsu := { s.dsu with halt := none } } (fun t => !t.dsu.clearArmed && t.dsu.halt.isNone)) := by
  decide +kernel

end Sys2Proof.Tests
end

section
/-! The stores stay well kept: capacities, the condition list of the docket under test, one way per hash (R9, R13, R46,
R60, R76, R80, R159, R176). First what each block has to hold, then one rule for each update of the state, then the
operations family by family, in the order of the model, and at the end the commands. -/

namespace Sys2Proof.Machine

/-! ### What every command keeps, the step keeps -/

/-- Every next state that an outcome answers meets `P`. -/
def OutMeets (P : State → Prop) (o : Out) : Prop := ∀ t, o = .next t → P t

theorem outMeets_next {P : State → Prop} {s : State} (h : P s) : OutMeets P (.next s) := by
  rintro t ⟨⟩
  exact h

theorem outMeets_ite {P : State → Prop} {c : Prop} [Decidable c] {a b : State} (yes : c → P a) (no : P b) :
    OutMeets P (if c then .next a else .next b) := by
  split
  · rename_i hc
    exact outMeets_next (yes hc)
  · exact outMeets_next no

/-- A predicate that does not look at the queue of commands and that every command keeps is kept by the step. -/
theorem step_meets {P : State → Prop} (queue : ∀ s q, P s → P (s.withPending q))
    (each : ∀ i s, P s → OutMeets P (exec i s)) {s t : State} (hs : P s) (ran : step s = .next t) : P t := by
  unfold step at ran
  split at ran
  · cases ran
    exact hs
  · exact each _ _ (queue s _ hs) t ran

/-! ### The blocks that hold stores -/

/-- The queues of the intake unit and the findings of its docket in work are within their capacities (R13, R63). -/
def Ieu.Fits (u : Ieu) : Prop :=
  u.infeed.length ≤ Config.infeedCap ∧ u.direct.length ≤ Config.directCap ∧ u.findings.length ≤ 6

theorem Ieu.Fits.infeed {u : Ieu} (fits : u.Fits) : u.infeed.length ≤ Config.infeedCap := fits.1
theorem Ieu.Fits.direct {u : Ieu} (fits : u.Fits) : u.direct.length ≤ Config.directCap := fits.2.1
theorem Ieu.Fits.findings {u : Ieu} (fits : u.Fits) : u.findings.length ≤ 6 := fits.2.2

/-- The arrival queue, with the place that a call reserves, and the record buffer are within their capacities (R159,
R165, R176). -/
structure Dsu.Fits (u : Dsu) : Prop where
  places : u.arrival.length + (if u.call.isSome then 1 else 0) ≤ Config.arrivalCap
  lines : u.recBuffer.length ≤ Config.recordCap

/-- The docket of a slot, if there is one, carries a fit condition list (R9). -/
def SlotFits (o : Option Docket) : Prop := ∀ d x, o = some d → d.test = some x → x.ConditionsFit

/-- A history has its sixteen sets, each with one way per hash (R80). -/
structure HistoryFits (l : List HistSet) : Prop where
  sixteen : l.length = 16
  oneWay : ∀ x ∈ l, x.OneWayPerHash

/-- What each block of the state has to hold for the stores to be well kept. -/
structure BlocksFit (s : State) : Prop where
  txq : s.txq.length ≤ Config.txCap
  ieu : s.ieu.Fits
  dsu : s.dsu.Fits
  waiting : s.ports.waiting.length ≤ Config.replyCap
  pvt : s.pvt.length = 16
  slot : SlotFits s.tsq.docket
  history : HistoryFits s.history

theorem storesWellKept_iff (s : State) : StoresWellKept s ↔ BlocksFit s :=
  ⟨fun ⟨⟨txq, infeed, direct, findings, places, lines, waiting, pvt, sixteen⟩, slot, oneWay⟩ =>
    ⟨txq, ⟨infeed, direct, findings⟩, ⟨places, lines⟩, waiting, pvt, slot, ⟨sixteen, oneWay⟩⟩,
  fun ⟨txq, ⟨infeed, direct, findings⟩, ⟨places, lines⟩, waiting, pvt, slot, ⟨sixteen, oneWay⟩⟩ =>
    ⟨⟨txq, infeed, direct, findings, places, lines, waiting, pvt, sixteen⟩, slot, oneWay⟩⟩

section
variable {s : State}

theorem StoresWellKept.blocks (h : StoresWellKept s) : BlocksFit s := (storesWellKept_iff s).mp h

/-! ### One rule for each update of the state -/

theorem withLoader_wellKept (x : Loader) (h : StoresWellKept s) : StoresWellKept (s.withLoader x) := h
theorem withParams_wellKept (x : Params) (h : StoresWellKept s) : StoresWellKept (s.withParams x) := h
theorem withLif_wellKept (x : Lif) (h : StoresWellKept s) : StoresWellKept (s.withLif x) := h
theorem withInputs_wellKept (x : Pins) (h : StoresWellKept s) : StoresWellKept (s.withInputs x) := h
theorem withMsu_wellKept (x : Msu) (h : StoresWellKept s) : StoresWellKept (s.withMsu x) := h
theorem withAdm_wellKept (x : Adm) (h : StoresWellKept s) : StoresWellKept (s.withAdm x) := h
theorem withIlk_wellKept (x : Ilk) (h : StoresWellKept s) : StoresWellKept (s.withIlk x) := h
theorem withLamp_wellKept (x : Option LampWord) (h : StoresWellKept s) : StoresWellKept (s.withLamp x) := h
theorem withFreeCount_wellKept (x : Nat) (h : StoresWellKept s) : StoresWellKept (s.withFreeCount x) := h
theorem withPending_wellKept (x : List Instr) (h : StoresWellKept s) : StoresWellKept (s.withPending x) := h

theorem withTxq_wellKept {q : List TxMsg} (h : StoresWellKept s) (fits : q.length ≤ Config.txCap) :
    StoresWellKept (s.withTxq q) :=
  (storesWellKept_iff _).mpr { h.blocks with txq := fits }

theorem withIeu_wellKept {u : Ieu} (h : StoresWellKept s) (fits : u.Fits) : StoresWellKept (s.withIeu u) :=
  (storesWellKept_iff _).mpr { h.blocks with ieu := fits }

theorem withDsu_wellKept {u : Dsu} (h : StoresWellKept s) (fits : u.Fits) : StoresWellKept (s.withDsu u) :=
  (storesWellKept_iff _).mpr { h.blocks with dsu := fits }

theorem withPorts_wellKept {x : Ports} (h : StoresWellKept s) (fits : x.waiting.length ≤ Config.replyCap) :
    StoresWellKept (s.withPorts x) :=
  (storesWellKept_iff _).mpr { h.blocks with waiting := fits }

theorem withPvt_wellKept {l : List PvtEntry} (h : StoresWellKept s) (sixteen : l.length = 16) :
    StoresWellKept (s.withPvt l) :=
  (storesWellKept_iff _).mpr { h.blocks with pvt := sixteen }

theorem withTsq_wellKept {x : Tsq} (h : StoresWellKept s) (fits : SlotFits x.docket) :
    StoresWellKept (s.withTsq x) :=
  (storesWellKept_iff _).mpr { h.blocks with slot := fits }

theorem withHistory_wellKept {l : List HistSet} (h : StoresWellKept s) (fits : HistoryFits l) :
    StoresWellKept (s.withHistory l) :=
  (storesWellKept_iff _).mpr { h.blocks with history := fits }

/-- Both ways of a choice. -/
theorem ite_wellKept {c : Prop} [Decidable c] {a b : State} (yes : StoresWellKept a) (no : StoresWellKept b) :
    StoresWellKept (if c then a else b) := by
  split
  · exact yes
  · exact no

/-! ### The shared operations -/

theorem queueMsg_wellKept (m : TxMsg) (h : StoresWellKept s) : StoresWellKept (queueMsg m s) := by
  unfold queueMsg
  split
  · rename_i free
    have room : s.txq.length < Config.txCap := by
      simp only [State.txRoom, Bool.and_eq_true, decide_eq_true_eq] at free
      exact free.1
    exact withTxq_wellKept h (by rw [insertMsg_length]; omega)
  · exact h

theorem withdrawMsg_wellKept (k : MsgKind) (h : StoresWellKept s) : StoresWellKept (withdrawMsg k s) :=
  withTxq_wellKept h (Nat.le_trans (List.length_filterMap_le _ _) h.blocks.txq)

theorem removeContender_wellKept (h : StoresWellKept s) : StoresWellKept (removeContender s) :=
  withTxq_wellKept h (Nat.le_trans (List.length_eraseP_le) h.blocks.txq)

theorem countUnaccepted_wellKept (h : StoresWellKept s) : StoresWellKept (countUnaccepted s) :=
  withTxq_wellKept h (Nat.le_trans (List.length_filterMap_le _ _) h.blocks.txq)

theorem setEntry_wellKept (a : Addr) (e : PvtEntry) (h : StoresWellKept s) :
    StoresWellKept (setEntry a e s) :=
  withPvt_wellKept h (by rw [List.length_set]; exact h.blocks.pvt)

theorem queueCard_wellKept (r : Role) (h : StoresWellKept s) : StoresWellKept (queueCard r s) :=
  ite_wellKept h (queueMsg_wellKept _ h)

theorem refreshShare_wellKept (h : StoresWellKept s) : StoresWellKept (refreshShare s) :=
  ite_wellKept (withAdm_wellKept _ h) h

theorem withRound_wellKept (r : Round) (h : StoresWellKept s) : StoresWellKept (withRound r s) := h
theorem toIdleWait_wellKept (h : StoresWellKept s) : StoresWellKept (toIdleWait s) := h

theorem endRound_wellKept (h : StoresWellKept s) : StoresWellKept (endRound s) :=
  ite_wellKept (toIdleWait_wellKept h) (withLif_wellKept _ h)

/-! ### The disposal unit -/

/-- An update of the disposal unit that leaves queue, call and buffer alone. -/
theorem withDsu_rest_wellKept {u : Dsu} (h : StoresWellKept s) (arrival : u.arrival = s.dsu.arrival)
    (call : u.call = s.dsu.call) (buffer : u.recBuffer = s.dsu.recBuffer) : StoresWellKept (s.withDsu u) := by
  obtain ⟨places, lines⟩ := h.blocks.dsu
  rw [← arrival, ← call] at places
  exact withDsu_wellKept h ⟨places, buffer ▸ lines⟩

/-- Dockets leave the arrival queue, and the call ends or stands (R159, R165). -/
theorem withDsu_fewer_wellKept {u : Dsu} (h : StoresWellKept s) (arrival : u.arrival.length ≤ s.dsu.arrival.length)
    (call : u.call.isSome = true → s.dsu.call.isSome = true) (buffer : u.recBuffer = s.dsu.recBuffer) :
    StoresWellKept (s.withDsu u) := by
  obtain ⟨places, lines⟩ := h.blocks.dsu
  refine withDsu_wellKept h ⟨?_, buffer ▸ lines⟩
  cases hu : u.call.isSome
  · simp only [Bool.false_eq_true, if_false]
    omega
  · simp only [call hu, if_true] at places ⊢
    omega

theorem queueNote_wellKept (d : Docket) (h : StoresWellKept s) : StoresWellKept (queueNote d s) :=
  queueMsg_wellKept _ h

theorem finishLine_wellKept (w : Waiter) (h : StoresWellKept s) : StoresWellKept (finishLine w s) := by
  unfold finishLine
  split
  · exact queueNote_wellKept _ (withDsu_rest_wellKept h rfl rfl rfl)
  · exact queueNote_wellKept _ (withDsu_fewer_wellKept h List.length_eraseP_le id rfl)
  · exact h

/-- A line enters the record buffer where there is a place for it (R176). -/
theorem enterBuffer_wellKept (w : Waiter) (h : StoresWellKept s) (room : s.dsu.recBuffer.length < Config.recordCap) :
    StoresWellKept (enterBuffer w s) := by
  refine finishLine_wellKept w (withDsu_wellKept h ⟨h.blocks.dsu.places, ?_⟩)
  simpa using room

theorem produceLine_wellKept (w : Waiter) (h : StoresWellKept s) : StoresWellKept (produceLine w s) := by
  unfold produceLine
  split
  · rename_i room
    exact enterBuffer_wellKept w h room
  · exact withDsu_rest_wellKept h rfl rfl rfl

theorem lineSent_wellKept (h : StoresWellKept s) : StoresWellKept (lineSent s) := by
  unfold lineSent
  split
  · exact h
  · rename_i l rest buffer
    obtain ⟨places, lines⟩ := h.blocks.dsu
    rw [buffer, List.length_cons] at lines
    have sent (p : Ports) (hp : p.waiting = s.ports.waiting) (more : List Waiter) :
        StoresWellKept ((s.withPorts p).withDsu { s.dsu with recBuffer := rest, recWaiters := more }) :=
      withDsu_wellKept (withPorts_wellKept h (hp ▸ h.blocks.waiting)) ⟨places, Nat.le_of_lt lines⟩
    dsimp only
    split
    · exact sent _ rfl _
    · exact enterBuffer_wellKept _ (sent _ rfl _) lines

theorem sendRecord_wellKept (cts : Bool) (h : StoresWellKept s) : StoresWellKept (sendRecord cts s) := by
  have read : StoresWellKept (s.withPorts { s.ports with recCts := cts }) := withPorts_wellKept h h.blocks.waiting
  exact ite_wellKept (lineSent_wellKept read) read

theorem setPhase_wellKept (p : ActionPhase) (h : StoresWellKept s) : StoresWellKept (setPhase p s) := h
theorem enterLane_wellKept (lane : BitVec 2) (h : StoresWellKept s) : StoresWellKept (enterLane lane s) := h
theorem startPunch_wellKept (h : StoresWellKept s) : StoresWellKept (startPunch s) := h
theorem putWork_wellKept (i : WorkItem) (p : ActionPhase) (h : StoresWellKept s) :
    StoresWellKept (putWork i p s) := h

theorem settle_wellKept (disp : Disposition) (c : Option Cause) (lane : BitVec 2) (h : StoresWellKept s) :
    StoresWellKept (settle disp c lane s) := by
  unfold settle
  split
  · exact enterLane_wellKept _ (produceLine_wellKept _ (withDsu_rest_wellKept h rfl rfl rfl))
  · exact h

theorem laneEnd_wellKept (h : StoresWellKept s) : StoresWellKept (laneEnd s) := by
  unfold laneEnd
  split
  · split
    · split
      · exact setPhase_wellKept _ h
      · exact withDsu_rest_wellKept h rfl rfl rfl
    · exact h
  · exact h

theorem punchDone_wellKept (h : StoresWellKept s) : StoresWellKept (punchDone s) :=
  ite_wellKept (settle_wellKept _ _ _ (withDsu_rest_wellKept h rfl rfl rfl)) h

theorem punchExpiry_wellKept (h : StoresWellKept s) : StoresWellKept (punchExpiry s) :=
  ite_wellKept (withDsu_rest_wellKept (setPhase_wellKept _ h) rfl rfl rfl) h

/-- An exchange keeps the stores when what its reply does keeps them (R169). -/
theorem exchange_wellKept (cmd : BitVec 24) (next : Nat) (r : LinkReply)
    {f : Except Cause (BitVec 24) → State → State}
    (replied : ∀ e u, StoresWellKept u → StoresWellKept (f e u)) (h : StoresWellKept s) :
    StoresWellKept (exchange cmd next r f s) := by
  have answered (w : BitVec 24) (b : Bool) : StoresWellKept (exchange cmd next (.word w b) f s) := by
    cases fault : replyFault cmd w b with
    | none =>
      rw [exchange_good _ _ _ _ _ _ fault]
      exact replied _ _ (withDsu_rest_wellKept h rfl rfl rfl)
    | some c =>
      rw [exchange_bad _ _ _ _ _ _ c fault]
      exact replied _ _ (withDsu_rest_wellKept h rfl rfl rfl)
  cases r with
  | silent => exact answered cmd true
  | word w b => exact answered w b
  | stopped => exact withFreeCount_wellKept _ (withDsu_rest_wellKept h rfl rfl rfl)

theorem markFault_wellKept (c : Cause) (h : StoresWellKept s) : StoresWellKept (markFault c s) :=
  withDsu_rest_wellKept (settle_wellKept _ _ _ (withDsu_rest_wellKept h rfl rfl rfl)) rfl rfl rfl

/-- An exchange of the marking sequence: a fault abandons the sequence (R170, R172). -/
theorem markExchange_wellKept (cmd : BitVec 24) (next : Nat) (r : LinkReply) {good : BitVec 24 → State → State}
    (went : ∀ w u, StoresWellKept u → StoresWellKept (good w u)) (h : StoresWellKept s) :
    StoresWellKept (exchange cmd next r (onLink good) s) := by
  refine exchange_wellKept _ _ _ (fun e u hu => ?_) h
  cases e with
  | error c => exact markFault_wellKept c hu
  | ok w => exact went w u hu

theorem linkClear_wellKept (r : LinkReply) (h : StoresWellKept s) : StoresWellKept (linkClear r s) :=
  ite_wellKept (markExchange_wellKept _ _ _ (fun _ _ hu => setPhase_wellKept _ hu) h) h

theorem linkLoad_wellKept (r : LinkReply) (h : StoresWellKept s) : StoresWellKept (linkLoad r s) := by
  unfold linkLoad
  split
  · exact markExchange_wellKept _ _ _ (fun _ _ hu => setPhase_wellKept _ hu) h
  · exact h

theorem queryReply_wellKept (w : BitVec 24) (h : StoresWellKept s) : StoresWellKept (queryReply w s) :=
  ite_wellKept (setPhase_wellKept _ (withDsu_rest_wellKept h rfl rfl rfl)) (markFault_wellKept _ h)

theorem pollReply_wellKept (w : BitVec 24) (h : StoresWellKept s) : StoresWellKept (pollReply w s) :=
  ite_wellKept (ite_wellKept (settle_wellKept _ _ _ (withDsu_rest_wellKept h rfl rfl rfl)) (markFault_wellKept _ h)) h

theorem linkQuery_wellKept (r : LinkReply) (h : StoresWellKept s) : StoresWellKept (linkQuery r s) :=
  ite_wellKept (markExchange_wellKept _ _ _ (fun w _ hu => queryReply_wellKept w hu) h)
    (ite_wellKept (markExchange_wellKept _ _ _ (fun w _ hu => pollReply_wellKept w hu) h) h)

theorem linkStrike_wellKept (r : LinkReply) (h : StoresWellKept s) : StoresWellKept (linkStrike r s) :=
  ite_wellKept
    (markExchange_wellKept _ _ _ (fun _ _ hu => setPhase_wellKept _ hu) (withDsu_rest_wellKept h rfl rfl rfl)) h

theorem strikeExpiry_wellKept (h : StoresWellKept s) : StoresWellKept (strikeExpiry s) :=
  ite_wellKept (markFault_wellKept _ h) h

theorem beginAction_wellKept (d : Docket) (h : StoresWellKept s) : StoresWellKept (beginAction d s) := by
  unfold beginAction
  split
  · split
    · exact setPhase_wellKept _ h
    · exact startPunch_wellKept h
    · exact settle_wellKept _ _ _ h
    · exact setPhase_wellKept _ h
  · exact startPunch_wellKept h
  · exact settle_wellKept _ _ _ h
  · exact settle_wellKept _ _ _ h
  · exact settle_wellKept _ _ _ h
  · exact setPhase_wellKept _ h

theorem identityRead_wellKept (m n : Text) (h : StoresWellKept s) : StoresWellKept (identityRead m n s) := by
  unfold identityRead
  split
  · exact beginAction_wellKept _ (putWork_wellKept _ _ (withDsu_fewer_wellKept h List.length_eraseP_le id rfl))
  · exact enterLane_wellKept _ (produceLine_wellKept _ (putWork_wellKept _ _ h))

theorem markRead_wellKept (l : PortLine) (h : StoresWellKept s) : StoresWellKept (markRead l s) := by
  have held (b : LineBuffer) : StoresWellKept (s.withPorts { s.ports with lineA := b }) :=
    withPorts_wellKept h h.blocks.waiting
  unfold markRead
  dsimp only
  split
  · split
    · split
      · exact identityRead_wellKept _ _ (held _)
      · exact held _
    · exact held _
  · exact held _

/-- A docket takes a free place, one that no call reserves (R159, R160). -/
theorem addArrival_wellKept (d : Docket) (h : StoresWellKept s) (room : 1 ≤ s.dsu.free) :
    StoresWellKept (addArrival d s) := by
  refine withDsu_wellKept h ⟨?_, h.blocks.dsu.lines⟩
  unfold Dsu.free at room
  simp only [List.length_append, List.length_singleton]
  omega

theorem finishMissing_wellKept (i : Nat) (h : StoresWellKept s) : StoresWellKept (finishMissing i s) := by
  unfold finishMissing
  split
  · exact produceLine_wellKept _ (withDsu_fewer_wellKept h (Nat.le_of_eq List.length_set) id rfl)
  · exact h

/-- A return takes the place that its call reserved (R161, R165). -/
theorem returnAccepted_wellKept (d : Docket) (h : StoresWellKept s) (called : s.dsu.call.isSome = true) :
    StoresWellKept (returnAccepted d s) := by
  obtain ⟨places, lines⟩ := h.blocks.dsu
  rw [if_pos called] at places
  have queued : StoresWellKept (addArrival d (s.withDsu { s.dsu with call := none })) :=
    withDsu_wellKept (withDsu_fewer_wellKept h (Nat.le_refl _) (fun no => nomatch no) rfl)
      ⟨by simpa using places, lines⟩
  exact ite_wellKept (finishMissing_wellKept _ queued) queued

/-- A call reserves a free place (R164, R165). -/
theorem callDecision_wellKept (h : StoresWellKept s) : StoresWellKept (callDecision s) := by
  unfold callDecision
  split
  · split
    · rename_i may
      have reserved : s.dsu.call = none ∧ 1 ≤ s.dsu.free := by
        simp only [State.mayCall, Bool.and_eq_true, Option.isNone_iff_eq_none, decide_eq_true_eq] at may
        tauto
      obtain ⟨none', room⟩ := reserved
      refine queueMsg_wellKept _ (withDsu_wellKept h ⟨?_, h.blocks.dsu.lines⟩)
      unfold Dsu.free at room
      simp only [none', Option.isSome_none, Option.isSome_some, Bool.false_eq_true, if_false, if_true] at room ⊢
      omega
    · exact h
  · exact h

theorem withCall_wellKept (f : Call → Option Call) (h : StoresWellKept s) : StoresWellKept (withCall f s) := by
  refine withDsu_fewer_wellKept h (Nat.le_refl _) (fun some' => ?_) rfl
  cases hc : s.dsu.call with
  | none => simp [hc] at some'
  | some c => rfl

theorem callExpiry_wellKept (h : StoresWellKept s) : StoresWellKept (callExpiry s) := by
  unfold callExpiry
  split
  · rename_i c hc
    split
    · exact withdrawMsg_wellKept _ (withDsu_fewer_wellKept h (Nat.le_refl _) (fun _ => by rw [hc]; rfl) rfl)
    · exact h
  · exact h

theorem disposeStop_wellKept (h : StoresWellKept s) : StoresWellKept (disposeStop s) := by
  have stopped := withDsu_rest_wellKept (u := { s.dsu with
    stopCopy := true, punchPulse := false, punchTimer := .stopped, strike := .stopped }) h rfl rfl rfl
  unfold disposeStop
  dsimp only
  split
  · split
    · exact settle_wellKept _ _ _ stopped
    · exact setPhase_wellKept _ stopped
    · exact setPhase_wellKept _ stopped
    · exact stopped
  · exact stopped

theorem disposeResume_wellKept (h : StoresWellKept s) : StoresWellKept (disposeResume s) := by
  have resumed := withDsu_rest_wellKept (u := { s.dsu with stopCopy := false }) h rfl rfl rfl
  exact ite_wellKept (startPunch_wellKept resumed) (ite_wellKept (setPhase_wellKept _ resumed) resumed)

theorem panelReply_wellKept (r : Except Cause (BitVec 24)) (h : StoresWellKept s) :
    StoresWellKept (panelReply r s) := by
  have halted (c : Option Cause) := withDsu_rest_wellKept (u := { s.dsu with halt := c }) h rfl rfl rfl
  cases r with
  | error c => exact halted _
  | ok w =>
    unfold panelReply
    dsimp only
    split
    · exact startPunch_wellKept (halted _)
    · exact halted _

theorem panelClear_wellKept (r : LinkReply) (h : StoresWellKept s) : StoresWellKept (panelClear r s) := by
  have disarmed : StoresWellKept ((s.withInputs { s.inputs with clear := true }).withDsu
      { s.dsu with clearArmed := false }) := withDsu_rest_wellKept (withInputs_wellKept _ h) rfl rfl rfl
  exact ite_wellKept
    (ite_wellKept (exchange_wellKept _ _ _ (fun e _ hu => panelReply_wellKept e hu) disarmed) disarmed) h

theorem disposeConflict_wellKept (h : StoresWellKept s) : StoresWellKept (disposeConflict s) :=
  withDsu_rest_wellKept h rfl rfl rfl

/-! ### The serial history -/

/-- A way is written in a set whose other way does not hold the same hash (R80). -/
theorem HistSet.write_oneWay {x : HistSet} {one : Bool} {w : Way}
    (other : w.valid = true → (x.way (!one)).holds w.hash = false) : (x.write one w).OneWayPerHash := by
  unfold HistSet.OneWayPerHash
  rintro ⟨v0, v1, same⟩
  cases one with
  | false => simp_all [HistSet.write, HistSet.way, Way.holds]
  | true => simp_all [HistSet.write, HistSet.way, Way.holds]

/-- The way that a note does not use does not hold its hash (R80, R85, R86). -/
theorem HistSet.noteWay_other {x : HistSet} (one : x.OneWayPerHash) (h : BitVec 16) :
    (x.way (!x.noteWay h)).holds h = false := by
  by_cases h0 : x.way0.holds h = true
  · have other : x.way1.holds h = false := by
      by_contra held
      simp only [Way.holds, Bool.and_eq_true, beq_iff_eq, Bool.not_eq_false] at h0 held
      exact one ⟨h0.1, held.1, h0.2.trans held.2.symm⟩
    simpa [HistSet.noteWay, HistSet.findWay, h0, HistSet.way] using other
  · by_cases h1 : x.way1.holds h = true
    · simp [HistSet.noteWay, HistSet.findWay, h0, h1, HistSet.way]
    · have neither (b : Bool) : (x.way b).holds h = false := by
        cases b with
        | false => exact Bool.eq_false_iff.mpr h0
        | true => exact Bool.eq_false_iff.mpr h1
      exact neither _

theorem noteSet_oneWay {x : HistSet} (one : x.OneWayPerHash) (n : Note) (now : BitVec 32) :
    (noteSet x n now).OneWayPerHash :=
  HistSet.write_oneWay (fun _ => HistSet.noteWay_other one n.hash)

/-- A lookup sets the LRU bit, or takes the mark `valid` from a stale way (R82). -/
theorem lookupSet_oneWay {x : HistSet} (one : x.OneWayPerHash) (h : BitVec 16) (now : BitVec 32) :
    (lookupSet x h now).1.OneWayPerHash := by
  unfold lookupSet
  split
  · exact one
  · dsimp only
    split
    · exact HistSet.write_oneWay (fun valid => nomatch valid)
    · exact one

theorem historySet_oneWay {l : List HistSet} (fits : HistoryFits l) (h : BitVec 16) :
    (historySet l h).OneWayPerHash := by
  unfold historySet
  rw [List.getD_eq_getElem l {} (by have := (h.extractLsb' 0 4).isLt; rw [fits.sixteen]; exact this)]
  exact fits.oneWay _ (List.getElem_mem _)

theorem HistoryFits.set {l : List HistSet} {x : HistSet} (fits : HistoryFits l) (i : Nat) (one : x.OneWayPerHash) :
    HistoryFits (l.set i x) := by
  refine ⟨by rw [List.length_set]; exact fits.sixteen, fun y hy => ?_⟩
  rcases List.mem_or_eq_of_mem_set hy with old | rfl
  · exact fits.oneWay y old
  · exact one

theorem rebaseHistory_fits {l : List HistSet} (fits : HistoryFits l) : HistoryFits (rebaseHistory l) := by
  refine ⟨by rw [rebaseHistory, List.length_map]; exact fits.sixteen, fun y hy => ?_⟩
  obtain ⟨x, hx, rfl⟩ := List.mem_map.mp hy
  exact fits.oneWay x hx

theorem takeNote_wellKept (n : Note) (h : StoresWellKept s) : StoresWellKept (takeNote n s) := by
  refine withHistory_wellKept h ?_
  unfold noteHistory
  split
  · exact h.blocks.history
  · exact h.blocks.history.set _ (noteSet_oneWay (historySet_oneWay h.blocks.history _) _ _)

/-! ### The intake unit -/

theorem Ieu.Fits.toReady {u : Ieu} (fits : u.Fits) : u.toReady.Fits := fits

theorem Ieu.Fits.refresh {u : Ieu} (fits : u.Fits) : u.refresh.Fits := by
  unfold Ieu.refresh
  split
  · split
    · exact fits
    · exact fits
  · split
    · exact fits
    · exact fits
  · exact fits

theorem Ieu.Fits.popInfeed {u : Ieu} (fits : u.Fits) : u.popInfeed.Fits := by
  obtain ⟨infeed, direct, findings⟩ := fits
  have shorter : u.infeed.tail.length ≤ Config.infeedCap := by rw [List.length_tail]; omega
  exact Ieu.Fits.refresh (u := { u with infeed := u.infeed.tail, stall := 0 }) ⟨shorter, direct, findings⟩

/-- Another docket in work, or none: the queues stand (R59, R62, R63, R66). -/
theorem withWork_fits {u : Ieu} {o : Option Docket} (fits : u.Fits)
    (few : ∀ d, o = some d → d.findings.length ≤ 6) :
    ({ u with work := o } : Ieu).Fits := by
  refine ⟨fits.infeed, fits.direct, ?_⟩
  cases o with
  | none => exact Nat.zero_le 6
  | some d => exact few d rfl

/-- The docket in work has at most six findings (R63). -/
theorem Ieu.Fits.work_findings {u : Ieu} (fits : u.Fits) {d : Docket} (work : u.work = some d) :
    d.findings.length ≤ 6 := by
  have few := fits.findings
  rwa [Ieu.findings, work] at few

theorem execPulseEnd_wellKept (c : ChannelName) (h : StoresWellKept s) :
    OutMeets StoresWellKept (execPulseEnd c s) := by
  unfold execPulseEnd
  split
  · split
    · exact outMeets_next (withIeu_wellKept h h.blocks.ieu)
    · exact outMeets_next (withIeu_wellKept h h.blocks.ieu)
    · exact outMeets_next (withIeu_wellKept h h.blocks.ieu)
  · exact outMeets_next h

theorem execInfeedClear_wellKept (h : StoresWellKept s) : OutMeets StoresWellKept (execInfeedClear s) := by
  refine outMeets_ite (fun _ => ?_) h
  split
  · exact withIeu_wellKept h h.blocks.ieu.toReady
  · exact withIeu_wellKept h h.blocks.ieu

theorem intakeStop_wellKept (h : StoresWellKept s) : StoresWellKept (intakeStop s) :=
  withdrawMsg_wellKept _ (withIeu_wellKept h h.blocks.ieu)

theorem intakeResume_wellKept (h : StoresWellKept s) : StoresWellKept (intakeResume s) := by
  unfold intakeResume
  refine withIeu_wellKept h ?_
  dsimp only
  split
  · exact h.blocks.ieu
  · exact Ieu.Fits.refresh (u := { s.ieu with state := s.ieu.left }) h.blocks.ieu

theorem intakeConflict_wellKept (h : StoresWellKept s) : StoresWellKept (intakeConflict s) :=
  withIeu_wellKept h h.blocks.ieu

theorem reply_wellKept (r : Reply) (h : StoresWellKept s) : StoresWellKept (reply r s) := by
  unfold reply
  split
  · rename_i room
    exact withPorts_wellKept h (by simpa using room)
  · exact h

theorem execTerminalReplySent_wellKept (h : StoresWellKept s) : OutMeets StoresWellKept (execTerminalReplySent s) := by
  unfold execTerminalReplySent
  split
  · rename_i r rest _ waits
    have full := h.blocks.waiting
    rw [waits, List.length_cons] at full
    exact outMeets_next (withPorts_wellKept h (Nat.le_of_lt full))
  · exact outMeets_next h

/-- A terminal line keeps the stores when its entry keeps them (R57). -/
theorem terminalLine_wellKept (l : PortLine) {f : LineBuffer → State → State}
    (entry : ∀ b u, StoresWellKept u → StoresWellKept (f b u)) (h : StoresWellKept s) :
    StoresWellKept (terminalLine l f s) :=
  ite_wellKept
    (ite_wellKept (entry _ _ (withPorts_wellKept h h.blocks.waiting)) (withPorts_wellKept h h.blocks.waiting)) h

/-- A terminal line whose entry passes the checks of R60 keeps the stores when its action keeps them. -/
theorem checkedLine_wellKept (l : PortLine) (form : List Text → Bool) {act : List Text → State → State}
    (taken : ∀ a u, StoresWellKept u → StoresWellKept (act a u)) (h : StoresWellKept s) :
    StoresWellKept (terminalLine l (entryChecks form act) s) :=
  terminalLine_wellKept l
    (fun _ u hu => ite_wellKept (reply_wellKept _ hu) (ite_wellKept (reply_wellKept _ hu) (taken _ u hu))) h

theorem takePeriod_wellKept (args : List Text) (h : StoresWellKept s) : StoresWellKept (takePeriod args s) := by
  unfold takePeriod
  dsimp only
  split
  · refine reply_wellKept _ (withIeu_wellKept h ?_)
    split
    · exact h.blocks.ieu
    · exact h.blocks.ieu
  · exact reply_wellKept _ h

theorem takeMass_wellKept (args : List Text) (h : StoresWellKept s) : StoresWellKept (takeMass args s) := by
  unfold takeMass
  split
  · exact reply_wellKept _ h
  · refine reply_wellKept _ (withIeu_wellKept h (withWork_fits h.blocks.ieu ?_))
    rintro d weighed
    obtain ⟨d0, work, rfl⟩ := Option.map_eq_some_iff.mp weighed
    exact h.blocks.ieu.work_findings (d := d0) work

/-- A finding is entered while there are fewer than six (R63). -/
theorem takeFind_wellKept (args : List Text) (h : StoresWellKept s) : StoresWellKept (takeFind args s) := by
  unfold takeFind
  split
  · exact reply_wellKept _ h
  · split
    · exact reply_wellKept _ h
    · split
      · exact reply_wellKept _ h
      · rename_i few
        refine reply_wellKept _ (withIeu_wellKept h (withWork_fits h.blocks.ieu ?_))
        rintro d found
        obtain ⟨d0, work, rfl⟩ := Option.map_eq_some_iff.mp found
        rw [Ieu.findings, work] at few
        simpa using few

theorem takeCancel_wellKept (args : List Text) (h : StoresWellKept s) : StoresWellKept (takeCancel args s) := by
  have cancelled {u : State} (hu : StoresWellKept u) : StoresWellKept
      (reply .ok (u.withIeu ({ u.ieu with work := none, closePending := false }).toReady)) :=
    reply_wellKept _ (withIeu_wellKept hu ⟨hu.blocks.ieu.infeed, hu.blocks.ieu.direct, Nat.zero_le 6⟩)
  unfold takeCancel
  dsimp only
  split
  · split
    · exact cancelled (reply_wellKept _ h)
    · exact cancelled h
  · exact reply_wellKept _ h

theorem takeClear_wellKept (args : List Text) (h : StoresWellKept s) : StoresWellKept (takeClear args s) :=
  ite_wellKept
    (reply_wellKept _ (withIeu_wellKept h
      (Ieu.Fits.refresh (u := { s.ieu with directFault := false }) h.blocks.ieu)))
    (reply_wellKept _ h)

theorem takeReader_wellKept (b : LineBuffer) (h : StoresWellKept s) : StoresWellKept (takeReader b s) := by
  unfold takeReader
  split
  · exact reply_wellKept _ h
  · exact reply_wellKept _ (withIeu_wellKept h ⟨h.blocks.ieu.infeed, h.blocks.ieu.direct, Nat.zero_le 6⟩)

theorem readerRead_wellKept (l : PortLine) (h : StoresWellKept s) : StoresWellKept (readerRead l s) := by
  have held (b : LineBuffer) : StoresWellKept (s.withPorts { s.ports with lineA := b }) :=
    withPorts_wellKept h h.blocks.waiting
  exact ite_wellKept (ite_wellKept (takeReader_wellKept _ (held _)) (reply_wellKept _ (held _))) (held _)

theorem evaluatedDocket_findings (s : State) (per : Period) (mass : Nat) (hit : Option Way) (d : Docket) :
    (evaluatedDocket s per mass hit d).findings = d.findings := by
  unfold evaluatedDocket classStep
  dsimp only
  split
  · rfl
  · rfl

theorem evaluate_wellKept (per : Period) (mass : Nat) {d : Docket} (h : StoresWellKept s)
    (work : s.ieu.work = some d) : StoresWellKept (evaluate per mass d s) := by
  have looked := withHistory_wellKept h (h.blocks.history.set (setIndex d.hash)
    (lookupSet_oneWay (historySet_oneWay h.blocks.history d.hash) d.hash s.lif.roundCounter))
  have few (hit : Option Way) : (evaluatedDocket s per mass hit d).findings.length ≤ 6 := by
    rw [evaluatedDocket_findings]
    exact h.blocks.ieu.work_findings work
  exact withIeu_wellKept looked ⟨h.blocks.ieu.infeed, h.blocks.ieu.direct, few _⟩

/-- A docket joins the queue that has a place for it (R71). -/
theorem joinDocket_wellKept (d : Docket) (h : StoresWellKept s) (can : s.ieu.canJoin d = true) :
    StoresWellKept (joinDocket d s) := by
  obtain ⟨infeed, direct, -⟩ := h.blocks.ieu
  simp only [Ieu.canJoin, Bool.and_eq_true] at can
  obtain ⟨-, place⟩ := can
  refine reply_wellKept _ (withIeu_wellKept h (Ieu.Fits.toReady ?_))
  by_cases test : (d.intent == some .test) = true
  · simp only [test, if_true, decide_eq_true_eq] at place ⊢
    exact ⟨by simpa using place, direct, Nat.zero_le 6⟩
  · simp only [test, if_false, Bool.and_eq_true, decide_eq_true_eq, Bool.false_eq_true] at place ⊢
    exact ⟨infeed, by simpa using place.1, Nat.zero_le 6⟩

theorem tryJoin_wellKept (h : StoresWellKept s) : StoresWellKept (tryJoin s) := by
  unfold tryJoin
  split
  · split
    · rename_i can
      exact joinDocket_wellKept _ h can
    · exact h
  · exact h

theorem takeClose_wellKept (args : List Text) (h : StoresWellKept s) : StoresWellKept (takeClose args s) := by
  unfold takeClose
  split
  · exact reply_wellKept _ h
  · split
    · rename_i work _
      split
      · split
        · exact reply_wellKept _ h
        · exact tryJoin_wellKept (evaluate_wellKept _ _ h work)
      · exact reply_wellKept _ h
    · exact h

theorem offerAccepted_wellKept (a : Addr) (h : StoresWellKept s) : StoresWellKept (offerAccepted a s) :=
  withIeu_wellKept h h.blocks.ieu.popInfeed

theorem directAccepted_wellKept (h : StoresWellKept s) : StoresWellKept (directAccepted s) := by
  obtain ⟨infeed, direct, findings⟩ := h.blocks.ieu
  exact withIeu_wellKept h ⟨infeed, by rw [List.length_tail]; omega, findings⟩

theorem directDropped_wellKept (h : StoresWellKept s) : StoresWellKept (directDropped s) :=
  withIeu_wellKept h (Ieu.Fits.refresh (u := { s.ieu with directFault := true }) h.blocks.ieu)

/-- The front docket moves to the direct queue while that has a place (R73). -/
theorem noHeadMove_wellKept (d : Docket) (h : StoresWellKept s) (can : s.ieu.canMove = true) :
    StoresWellKept (noHeadMove d s) := by
  have place : s.ieu.direct.length < Config.directCap := by
    simp only [Ieu.canMove, Bool.and_eq_true, decide_eq_true_eq] at can
    tauto
  obtain ⟨infeed, -, findings⟩ := h.blocks.ieu.popInfeed
  exact withIeu_wellKept (withdrawMsg_wellKept _ h) ⟨infeed, by simpa [withdrawMsg] using place, findings⟩

theorem offerDecision_wellKept (h : StoresWellKept s) : StoresWellKept (offerDecision s) := by
  unfold offerDecision
  split
  · exact h
  · split
    · split
      · exact withdrawMsg_wellKept _ h
      · split
        · exact queueMsg_wellKept _ h
        · exact h
    · split
      · rename_i can
        exact noHeadMove_wellKept _ h can
      · exact withdrawMsg_wellKept _ h

theorem directDecision_wellKept (h : StoresWellKept s) : StoresWellKept (directDecision s) := by
  unfold directDecision
  split
  · split
    · exact queueMsg_wellKept _ h
    · exact h
  · exact h

/-! ### The test part of the docket under test -/

/-- A code is entered at most once, at most three are, and the expansion fields go (R9). -/
theorem TestPart.ConditionsFit.append {x : TestPart} (fit : x.ConditionsFit) (c : Cause) :
    (x.append c).ConditionsFit := by
  obtain ⟨short, distinct, exclusive⟩ := fit
  unfold TestPart.append
  split
  · rename_i new
    simp only [Bool.and_eq_true, decide_eq_true_eq, Bool.not_eq_true', List.contains_eq_mem,
      decide_eq_false_iff_not] at new
    have short' : (x.conditions ++ [c]).length ≤ 3 := by simpa using new.1
    have distinct' : (x.conditions ++ [c]).Nodup := by
      rw [← List.concat_eq_append]
      exact distinct.concat new.2
    dsimp only
    split
    · exact ⟨short', distinct', fun _ => ⟨rfl, rfl, rfl, rfl⟩⟩
    · rename_i absent
      exact ⟨short', distinct', fun _ => exclusive (.inr (by simpa using absent))⟩
  · exact ⟨short, distinct, exclusive⟩

/-- A verdict is no part of the condition list. -/
theorem TestPart.ConditionsFit.judged {x : TestPart} (fit : x.ConditionsFit) (v : Verdict) (c : Option Cause) :
    (x.judged v c).ConditionsFit := fit

/-- With an empty list, a test part that has E_t is fit whatever stands in its other fields. -/
theorem conditionsFit_of_et {x : TestPart} (none' : x.conditions = []) (has : x.et.isSome = true) :
    x.ConditionsFit := by
  refine ⟨by simp [none'], by simp [none'], ?_⟩
  rintro (some' | absent)
  · exact absurd none' some'
  · rw [absent] at has
    cases has

/-- The arithmetic enters E_t and leaves the condition list alone (R139). -/
theorem expansion_enters (p : Params) (d : Docket) (x : TestPart) (et raw : Int) :
    (expansion p d x et raw).conditions = x.conditions ∧ (expansion p d x et raw).et = some et := by
  simp only [expansion, TestPart.judged, apply_ite TestPart.conditions, apply_ite TestPart.et, ite_self, and_self]

theorem expansion_conditionsFit (p : Params) (d : Docket) {x : TestPart} (et raw : Int) (none' : x.conditions = []) :
    (expansion p d x et raw).ConditionsFit := by
  obtain ⟨conditions, entered⟩ := expansion_enters p d x et raw
  exact conditionsFit_of_et (conditions.trans none') (by rw [entered]; rfl)

theorem repeatRule_conditionsFit (retest : Bool) {x : TestPart} (fit : x.ConditionsFit) :
    (repeatRule retest x).ConditionsFit := by
  unfold repeatRule
  split
  · split
    · exact fit.judged _ _
    · exact fit
  · exact fit

theorem arithmetic_conditionsFit (p : Params) (d : Docket) {x : TestPart} (none' : x.conditions = [])
    (fit : x.ConditionsFit) : (arithmetic p d x).ConditionsFit := by
  unfold arithmetic
  split
  · exact expansion_conditionsFit _ _ _ _ none'
  · exact fit

/-- The verdict assembly computes only with an empty condition list (R140). -/
theorem assembleVerdict_conditionsFit (p : Params) (d : Docket) {x : TestPart} (fit : x.ConditionsFit) :
    (assembleVerdict p d x).ConditionsFit := by
  unfold assembleVerdict
  split
  · exact fit.judged _ _
  · split
    · exact repeatRule_conditionsFit _ (fit.judged _ _)
    · rename_i none'
      exact repeatRule_conditionsFit _ (arithmetic_conditionsFit p d none' fit)

theorem SlotFits.onTest {o : Option Docket} {g : Docket → TestPart → TestPart} (fits : SlotFits o)
    (keeps : ∀ d x, x.ConditionsFit → (g d x).ConditionsFit) : SlotFits (o.map fun d => d.onTest (g d)) := by
  intro d x hd hx
  obtain ⟨d0, h0, rfl⟩ := Option.map_eq_some_iff.mp hd
  obtain ⟨x0, hx0, rfl⟩ := Option.map_eq_some_iff.mp hx
  exact keeps d0 x0 (fits d0 x0 h0 hx0)

/-- The docket of an offer comes into the slot with a new test part, whose list is empty (R7). -/
theorem slotFits_newTest (d : Docket) (a : Addr) : SlotFits (some { d with test := some (newTest a) }) := by
  intro e x he hx
  cases he
  cases hx
  exact ⟨Nat.zero_le 3, List.nodup_nil, fun _ => ⟨rfl, rfl, rfl, rfl⟩⟩

theorem slotFits_none : SlotFits none := fun _ _ no => nomatch no

/-! ### The head -/

theorem onTest_wellKept {f : TestPart → TestPart} (keeps : ∀ x, x.ConditionsFit → (f x).ConditionsFit)
    (h : StoresWellKept s) : StoresWellKept (onTest f s) :=
  withTsq_wellKept h (h.blocks.slot.onTest (g := fun _ => f) fun _ => keeps)

theorem assembleSlot_wellKept (h : StoresWellKept s) : StoresWellKept (assembleSlot s) :=
  withTsq_wellKept h (h.blocks.slot.onTest fun d _ fit => assembleVerdict_conditionsFit s.params d fit)

/-- The sequencer changes and the docket in its slot does not. -/
theorem withTsq_rest_wellKept {x : Tsq} (h : StoresWellKept s) (docket : x.docket = s.tsq.docket) :
    StoresWellKept (s.withTsq x) :=
  withTsq_wellKept h (docket ▸ h.blocks.slot)

theorem leaveHolding_wellKept (h : StoresWellKept s) : StoresWellKept (leaveHolding s) :=
  withMsu_wellKept _ (onTest_wellKept (fun _ fit => fit) h)

theorem senseInputs_wellKept (p : Pins) (h : StoresWellKept s) : StoresWellKept (senseInputs p s) :=
  withIlk_wellKept _ (withInputs_wellKept p h)
theorem readChannels_wellKept (x : Sample) (h : StoresWellKept s) : StoresWellKept (readChannels x s) :=
  withMsu_wellKept _ h

theorem openTick_wellKept (o : TickOrder) (h : StoresWellKept s) : StoresWellKept (openTick o s) := by
  cases o with
  | beforeSample p x => exact withTsq_rest_wellKept (readChannels_wellKept x (senseInputs_wellKept p h)) rfl
  | afterSample => exact h

theorem enterPhase_wellKept (k : HeadState) (h : StoresWellKept s) : StoresWellKept (enterPhase k s) :=
  withTsq_rest_wellKept h rfl
theorem enterOos_wellKept (c : Cause) (h : StoresWellKept s) : StoresWellKept (enterOos c s) :=
  withTsq_rest_wellKept (enterPhase_wellKept _ h) rfl
theorem enterDone_wellKept (h : StoresWellKept s) : StoresWellKept (enterDone s) :=
  withTsq_rest_wellKept (enterPhase_wellKept _ h) rfl
theorem enterLocked_wellKept (k : HeadState) (h : StoresWellKept s) : StoresWellKept (enterLocked k s) :=
  withTsq_rest_wellKept (enterPhase_wellKept _ h) rfl
theorem enterReading_wellKept (k : HeadState) (h : StoresWellKept s) : StoresWellKept (enterReading k s) :=
  withMsu_wellKept _ (enterLocked_wellKept k h)
theorem openGate_wellKept (h : StoresWellKept s) : StoresWellKept (openGate s) := withTsq_rest_wellKept h rfl
theorem enterUnloading_wellKept (h : StoresWellKept s) : StoresWellKept (enterUnloading s) :=
  withTsq_rest_wellKept h rfl

theorem enterIdle_wellKept (h : StoresWellKept s) : StoresWellKept (enterIdle s) := by
  rw [(enterIdle_kept s).1]
  exact withTsq_rest_wellKept h (enterIdle_kept s).2.1

/-- A condition that latches during a test is entered in the list of the docket (R9, R146). -/
theorem latchOne_wellKept (c : Cause) (h : StoresWellKept s) : StoresWellKept (latchOne c s) :=
  ite_wellKept
    (ite_wellKept (onTest_wellKept (fun _ fit => fit.append c) (withIlk_wellKept _ h)) (withIlk_wellKept _ h)) h

theorem latchAll_wellKept (cs : List Cause) (h : StoresWellKept s) : StoresWellKept (latchAll cs s) := by
  unfold latchAll
  induction cs generalizing s with
  | nil => exact h
  | cons c cs ih => exact ih (latchOne_wellKept c h)

theorem enterSafe_wellKept (h : StoresWellKept s) : StoresWellKept (enterSafe s) := by
  unfold enterSafe
  split
  · exact h
  · exact h
  · split
    · have left (k : HeadState) : StoresWellKept (if k == .holding then leaveHolding s else s) :=
        ite_wellKept (leaveHolding_wellKept h) h
      exact withTsq_rest_wellKept (withAdm_wellKept _ (withMsu_wellKept _ (left _))) rfl
    · exact withTsq_rest_wellKept h rfl

theorem reenter_wellKept (k : HeadState) (h : StoresWellKept s) : StoresWellKept (reenter k s) := by
  unfold reenter
  split
  · exact enterIdle_wellKept h
  · exact enterDone_wellKept h
  · dsimp only
    split
    · exact openGate_wellKept (enterUnloading_wellKept h)
    · exact enterUnloading_wellKept h
  · exact enterOos_wellKept _ h
  · exact h

theorem leaveSafe_wellKept (h : StoresWellKept s) : StoresWellKept (leaveSafe s) := by
  unfold leaveSafe
  split
  · have judged := assembleSlot_wellKept (withTsq_rest_wellKept (x := { s.tsq with safeFrom := none }) h rfl)
    dsimp only
    split
    · exact enterLocked_wellKept _ judged
    · exact enterDone_wellKept judged
  · split
    · exact reenter_wellKept _ (withTsq_rest_wellKept h rfl)
    · exact h

theorem chooseNext_wellKept (h : StoresWellKept s) : StoresWellKept (chooseNext s) := by
  unfold chooseNext
  split
  · exact leaveSafe_wellKept (withIlk_wellKept _ h)
  · split
    · exact withIlk_wellKept _ h
    · exact leaveSafe_wellKept (withIlk_wellKept _ h)

theorem respond_wellKept (h : StoresWellKept s) : StoresWellKept (respond s) := by
  unfold respond
  split
  · exact h
  · split
    · exact chooseNext_wellKept (enterSafe_wellKept h)
    · split
      · exact chooseNext_wellKept h
      · exact h

theorem raise_wellKept (cs : List Cause) (h : StoresWellKept s) : StoresWellKept (raise cs s) :=
  respond_wellKept (latchAll_wellKept cs h)

theorem completeResponse_wellKept (h : StoresWellKept s) : StoresWellKept (completeResponse s) := by
  unfold completeResponse
  split
  · exact h
  · exact chooseNext_wellKept (withIlk_wellKept _ h)

/-! ### The events of a head -/

/-- An event at a head keeps the stores when what it does keeps them. -/
theorem atHead_wellKept {f : State → State} (done : StoresWellKept (f s)) (h : StoresWellKept s) :
    OutMeets StoresWellKept (.next (atHead f s)) :=
  outMeets_next (ite_wellKept done h)

/-- An input read at the tick of an event. -/
theorem inputRead_wellKept (f : Pins → Pins) (o : TickOrder) (h : StoresWellKept s) :
    StoresWellKept (withInput f (openTick o s)) :=
  withInputs_wellKept _ (openTick_wellKept o h)

theorem estopRead_wellKept (o : TickOrder) (h : StoresWellKept s) : StoresWellKept (estopRead o s) :=
  raise_wellKept _ (inputRead_wellKept _ o h)

theorem pswEdge_wellKept (o : TickOrder) (h : StoresWellKept s) : StoresWellKept (pswEdge o s) :=
  ite_wellKept (respond_wellKept (withIlk_wellKept _ (latchOne_wellKept _ (inputRead_wellKept _ o h)))) h

theorem abortEdge_wellKept (o : TickOrder) (h : StoresWellKept s) : StoresWellKept (abortEdge o s) :=
  ite_wellKept (respond_wellKept (withIlk_wellKept _ (latchOne_wellKept _ (inputRead_wellKept _ o h)))) h

theorem lidRead_wellKept (o : TickOrder) (h : StoresWellKept s) : StoresWellKept (lidRead o s) :=
  raise_wellKept _ (inputRead_wellKept _ o h)

theorem seatRead_wellKept (o : TickOrder) (h : StoresWellKept s) : StoresWellKept (seatRead o s) := by
  have read := inputRead_wellKept (fun p => { p with seat := true }) o h
  exact ite_wellKept (enterPhase_wellKept _ read) (ite_wellKept (enterOos_wellKept _ read) read)

theorem lidClosedRead_wellKept (o : TickOrder) (h : StoresWellKept s) : StoresWellKept (lidClosedRead o s) := by
  have read := inputRead_wellKept (fun p => { p with lidClosed := true }) o h
  exact ite_wellKept (withTsq_rest_wellKept read rfl) read

theorem fillRead_wellKept (o : TickOrder) (h : StoresWellKept s) : StoresWellKept (fillRead o s) := by
  have read := inputRead_wellKept (fun p => { p with jacketFull := true, bleedWet := true }) o h
  exact ite_wellKept (enterReading_wellKept _ read) read

theorem loadExpiry_wellKept (o : TickOrder) (h : StoresWellKept s) : StoresWellKept (loadExpiry o s) :=
  ite_wellKept (enterDone_wellKept (onTest_wellKept (fun _ fit => fit) (openTick_wellKept o h))) h

theorem expiryCause_wellKept (o : TickOrder) (c : Cause) (h : StoresWellKept s) :
    StoresWellKept (expiryCause o c s) := by
  refine raise_wellKept _ ?_
  cases o with
  | beforeSample p x => exact withIlk_wellKept _ (openTick_wellKept (.beforeSample p x) h)
  | afterSample => exact h

theorem fillExpiry_wellKept (o : TickOrder) (h : StoresWellKept s) : StoresWellKept (fillExpiry o s) :=
  ite_wellKept (expiryCause_wellKept _ _ h) h

theorem rampExpiry_wellKept (o : TickOrder) (h : StoresWellKept s) : StoresWellKept (rampExpiry o s) :=
  ite_wellKept (expiryCause_wellKept _ _ h) h

theorem holdExpiry_wellKept (o : TickOrder) (h : StoresWellKept s) : StoresWellKept (holdExpiry o s) :=
  ite_wellKept (withMsu_wellKept _ (openTick_wellKept o h)) h

theorem drainExpiry_wellKept (o : TickOrder) (h : StoresWellKept s) : StoresWellKept (drainExpiry o s) :=
  ite_wellKept (enterDone_wellKept (openTick_wellKept o h)) h

theorem patienceExpiry_wellKept (o : TickOrder) (h : StoresWellKept s) : StoresWellKept (patienceExpiry o s) :=
  ite_wellKept (withAdm_wellKept _ (openTick_wellKept o h)) h

theorem unloadRead_wellKept (o : TickOrder) (h : StoresWellKept s) : StoresWellKept (unloadRead o s) := by
  have read := inputRead_wellKept (fun p => { p with seat := false, unloadClear := true }) o h
  exact ite_wellKept (enterIdle_wellKept (withTsq_rest_wellKept read rfl)) read

theorem unloadExpiry_wellKept (o : TickOrder) (h : StoresWellKept s) : StoresWellKept (unloadExpiry o s) :=
  ite_wellKept (enterOos_wellKept _ (openTick_wellKept o h)) h

theorem clearTaken_wellKept (o : TickOrder) (h : StoresWellKept s) : StoresWellKept (clearTaken o s) := by
  have cleared (x y : Ilk) : StoresWellKept
      (((withInput (fun p => { p with clear := true }) (openTick o s)).withIlk x).withIlk y) :=
    withIlk_wellKept _ (withIlk_wellKept _ (inputRead_wellKept _ o h))
  unfold clearTaken
  dsimp only
  split
  · split
    · split
      · split
        · exact enterDone_wellKept (cleared _ _)
        · exact enterIdle_wellKept (cleared _ _)
      · exact cleared _ _
    · exact withIlk_wellKept _ (inputRead_wellKept _ o h)
  · exact h

/-! ### The sample of a head -/

theorem advanceTimers_wellKept (h : StoresWellKept s) : StoresWellKept (advanceTimers s) := by
  have counted : StoresWellKept (s.withTsq { s.tsq with
      phase := s.tsq.phase.map TickCounter.advance, tickOpen := false, peakOwed := false }) :=
    withTsq_rest_wellKept h rfl
  exact ite_wellKept (withIlk_wellKept _ counted) counted

theorem tickRead_wellKept (p : Pins) (x : Sample) (h : StoresWellKept s) : StoresWellKept (tickRead p x s) :=
  withIlk_wellKept _ (readChannels_wellKept x (advanceTimers_wellKept (senseInputs_wellKept p h)))

theorem raisePeak_wellKept (p : Nat) (h : StoresWellKept s) : StoresWellKept (raisePeak p s) :=
  onTest_wellKept (fun _ fit => fit) h

theorem enterHolding_wellKept (p : Nat) (h : StoresWellKept s) : StoresWellKept (enterHolding p s) :=
  withMsu_wellKept _ (onTest_wellKept (fun _ fit => fit) (enterReading_wellKept _ h))

theorem usePressure_wellKept (owed : Bool) (h : StoresWellKept s) : StoresWellKept (usePressure owed s) := by
  unfold usePressure
  split
  · dsimp only
    split
    · exact enterHolding_wellKept _ (raisePeak_wellKept _ h)
    · exact raisePeak_wellKept _ h
  · exact withMsu_wellKept _ (raisePeak_wellKept _ h)
  · split
    · exact enterReading_wellKept _ h
    · exact h
  · split
    · exact raisePeak_wellKept _ h
    · exact h
  · exact h

theorem takeReading_wellKept (k : HeadState) (sum t : Nat) (h : StoresWellKept s) :
    StoresWellKept (takeReading k sum t s) := by
  have entered {f : TestPart → TestPart} (keeps : ∀ x, x.ConditionsFit → (f x).ConditionsFit) :
      StoresWellKept (onTest f s) := onTest_wellKept keeps h
  unfold takeReading
  split
  · exact withAdm_wellKept _ (withMsu_wellKept _ (enterLocked_wellKept _ (entered fun _ fit => fit)))
  · exact withMsu_wellKept _ (enterLocked_wellKept _ (leaveHolding_wellKept (entered fun _ fit => fit)))
  · exact withMsu_wellKept _ (enterLocked_wellKept _ (assembleSlot_wellKept (entered fun _ fit => fit)))
  · exact h

theorem judgeWindow_wellKept (k : HeadState) (w : Window) (h : StoresWellKept s) :
    StoresWellKept (judgeWindow k w s) :=
  ite_wellKept (ite_wellKept (takeReading_wellKept _ _ _ h) (raise_wellKept _ (withMsu_wellKept _ h)))
    (ite_wellKept (raise_wellKept _ (withMsu_wellKept _ h)) (withMsu_wellKept _ h))

theorem useWindow_wellKept (k : HeadState) (x : Sample) (h : StoresWellKept s) :
    StoresWellKept (useWindow k x s) := by
  unfold useWindow
  dsimp only
  split
  · exact withMsu_wellKept _ h
  · split
    · exact h
    · split
      · exact withMsu_wellKept _ h
      · split
        · exact judgeWindow_wellKept _ _ h
        · exact withMsu_wellKept _ h

theorem windowStage_wellKept (phase : Option HeadState) (x : Sample) (h : StoresWellKept s) :
    StoresWellKept (windowStage phase x s) := by
  unfold windowStage
  split
  · split
    · exact useWindow_wellKept _ _ h
    · exact h
  · exact h

theorem headSample_wellKept (p : Pins) (x : Sample) (h : StoresWellKept s) : StoresWellKept (headSample p x s) :=
  windowStage_wellKept _ _ (raise_wellKept _ (usePressure_wellKept _ (tickRead_wellKept p x h)))

theorem disposeTick_wellKept (p : Pins) (h : StoresWellKept s) : StoresWellKept (disposeTick p s) :=
  withDsu_fewer_wellKept (withInputs_wellKept p h) (Nat.le_of_eq (List.length_map _)) id rfl

theorem execSampleTick_wellKept (p : Pins) (x : Sample) (h : StoresWellKept s) :
    OutMeets StoresWellKept (execSampleTick p x s) := by
  unfold execSampleTick
  split
  · exact outMeets_next (headSample_wellKept p x h)
  · exact outMeets_next (disposeTick_wellKept p h)
  · exact outMeets_next (withInputs_wellKept p h)
  · exact outMeets_next h

/-! ### The message window -/

theorem leaveWindow_wellKept (h : StoresWellKept s) : StoresWellKept (leaveWindow s) := h

theorem markFront_length (q : List TxMsg) : (markFront q).length = q.length := by
  cases q with
  | nil => rfl
  | cons m rest => rfl

theorem contend_wellKept (k : Key) (h : StoresWellKept s) : StoresWellKept (contend k s) := by
  have marked (r : Round) : StoresWellKept ((withRound r s).withTxq (markFront s.txq)) :=
    withTxq_wellKept (withRound_wellKept r h) ((markFront_length _).symm ▸ h.blocks.txq)
  exact ite_wellKept (leaveWindow_wellKept (marked _)) (marked _)

theorem unaccepted_wellKept (m : TxMsg) (h : StoresWellKept s) : StoresWellKept (unaccepted m s) := by
  have counted := countUnaccepted_wellKept h
  unfold unaccepted unacceptedEffect
  split
  · exact withIeu_wellKept counted h.blocks.ieu
  · exact withCall_wellKept _ counted
  · exact counted

theorem roundStage_wellKept (g : RoundStage) (h : StoresWellKept s) : StoresWellKept (roundStage g s) := h

theorem sendFrame_wellKept (read : List Byte) (m : TxMsg) (k : Key) (h : StoresWellKept s) :
    StoresWellKept (sendFrame read m k s) :=
  ite_wellKept (roundStage_wellKept _ (removeContender_wellKept (withRound_wellKept _ h)))
    (ite_wellKept (roundStage_wellKept _ (unaccepted_wellKept _ (withRound_wellKept _ h)))
      (roundStage_wellKept _ (withRound_wellKept _ h)))

theorem execMessageSend_wellKept (read : List Byte) (h : StoresWellKept s) :
    OutMeets StoresWellKept (execMessageSend read s) := by
  unfold execMessageSend
  split
  · exact outMeets_ite (fun _ => sendFrame_wellKept _ _ _ h) h
  · exact outMeets_next h

theorem returnTaken_wellKept (h : StoresWellKept s) : StoresWellKept (returnTaken s) := by
  have taken : StoresWellKept ((s.withTsq { s.tsq with docket := none, gateFlag := true }).withMsu
      { s.msu with limits := none }) := withMsu_wellKept _ (withTsq_wellKept h slotFits_none)
  exact ite_wellKept (ite_wellKept (enterIdle_wellKept taken) (openGate_wellKept taken))
    (ite_wellKept (withTsq_rest_wellKept taken rfl) taken)

theorem acceptedEffect_wellKept (k : MsgKind) (a : Addr) (h : StoresWellKept s) :
    StoresWellKept (acceptedEffect k a s) := by
  unfold acceptedEffect
  split
  · exact offerAccepted_wellKept a h
  · exact directAccepted_wellKept h
  · exact returnTaken_wellKept h
  · exact withCall_wellKept _ h
  · exact h

theorem readAccept_wellKept (read : Byte) (m : TxMsg) (h : StoresWellKept s) :
    StoresWellKept (readAccept read m s) := by
  unfold readAccept
  split
  · exact roundStage_wellKept _ (acceptedEffect_wellKept _ _ (removeContender_wellKept h))
  · exact roundStage_wellKept _ (unaccepted_wellKept _ h)

theorem execAcceptFieldRead_wellKept (read : Byte) (h : StoresWellKept s) :
    OutMeets StoresWellKept (execAcceptFieldRead read s) := by
  unfold execAcceptFieldRead
  split
  · exact outMeets_ite (fun _ => readAccept_wellKept _ _ h) h
  · exact outMeets_next h

theorem returnDropped_wellKept (h : StoresWellKept s) : StoresWellKept (returnDropped s) :=
  ite_wellKept (enterOos_wellKept _ h) (ite_wellKept (withTsq_rest_wellKept h rfl) h)

theorem droppedEffect_wellKept (k : MsgKind) (h : StoresWellKept s) : StoresWellKept (droppedEffect k s) := by
  unfold droppedEffect
  split
  · exact returnDropped_wellKept h
  · exact directDropped_wellKept h
  · exact withCall_wellKept _ h
  · exact h

theorem dropMessage_wellKept (h : StoresWellKept s) : StoresWellKept (dropMessage s) := by
  unfold dropMessage
  split
  · exact droppedEffect_wellKept _ (withTxq_wellKept h (Nat.le_trans List.length_eraseP_le h.blocks.txq))
  · exact h

theorem buffered_wellKept (f : Frame) (h : StoresWellKept s) : StoresWellKept (buffered f s) := h

/-- A frame received keeps the stores when what acts on it keeps them (R42). -/
theorem receive_wellKept (k : MsgKind) (f : Frame) {take : State → State}
    (taken : ∀ u, StoresWellKept u → StoresWellKept (take u)) (h : StoresWellKept s) :
    StoresWellKept (receive k f take s) := by
  unfold receive
  split
  · split
    · exact leaveWindow_wellKept (withRound_wellKept _ h)
    · split
      · exact taken _ (buffered_wellKept f h)
      · exact buffered_wellKept f h
  · exact h

/-- A message taken after its accept field has read back (R44): only the round has changed meanwhile. -/
theorem writeAccept_wellKept (read : Byte) {take : State → State}
    (taken : ∀ r, StoresWellKept (take (withRound r s))) (h : StoresWellKept s) :
    StoresWellKept (writeAccept read take s) :=
  ite_wellKept (taken _) (withRound_wellKept _ h)

theorem takeOffer_wellKept (d : Docket) (h : StoresWellKept s) : StoresWellKept (takeOffer d s) :=
  enterPhase_wellKept _ (withTsq_wellKept h (slotFits_newTest d s.ownAddr))

theorem offerFor_wellKept (f : Frame) (read : Byte) (h : StoresWellKept s) : StoresWellKept (offerFor f read s) := by
  unfold offerFor
  split
  · split
    · split
      · exact writeAccept_wellKept _ (fun r => takeOffer_wellKept _ (withRound_wellKept r h)) h
      · exact h
    · exact h
  · exact h

theorem takeCall_wellKept (a : Addr) (h : StoresWellKept s) : StoresWellKept (takeCall a s) :=
  enterUnloading_wellKept (queueMsg_wellKept _ (withTsq_rest_wellKept h rfl))

theorem callFor_wellKept (f : Frame) (read : Byte) (h : StoresWellKept s) : StoresWellKept (callFor f read s) :=
  ite_wellKept (writeAccept_wellKept _ (fun r => takeCall_wellKept _ (withRound_wellKept r h)) h) h

theorem directFor_wellKept (f : Frame) (read : Byte) (h : StoresWellKept s) : StoresWellKept (directFor f read s) := by
  unfold directFor
  split
  · split
    · split
      · rename_i free
        have room : 1 ≤ s.dsu.free := by
          simp only [Bool.and_eq_true, decide_eq_true_eq] at free
          exact free.1
        exact writeAccept_wellKept _ (fun r => addArrival_wellKept _ (withRound_wellKept r h) room) h
      · exact h
    · exact h
  · exact h

theorem Dsu.called_isSome {u : Dsu} {a : Addr} (called : u.called a = true) : u.call.isSome = true := by
  unfold Dsu.called at called
  split at called
  · rename_i some'
    rw [some']
    rfl
  · cases called

theorem returnFor_wellKept (f : Frame) (read : Byte) (h : StoresWellKept s) : StoresWellKept (returnFor f read s) := by
  unfold returnFor
  split
  · split
    · split
      · rename_i due
        have called : s.dsu.call.isSome = true := by
          simp only [Bool.and_eq_true] at due
          exact Dsu.called_isSome due.1
        exact writeAccept_wellKept _ (fun r => returnAccepted_wellKept _ (withRound_wellKept r h) called) h
      · exact h
    · exact h
  · exact h

theorem cardFor_wellKept (f : Frame) (h : StoresWellKept s) : StoresWellKept (cardFor f s) := by
  unfold cardFor
  dsimp only
  split
  · split
    · exact refreshShare_wellKept (withRound_wellKept _ (setEntry_wellKept _ _ h))
    · exact h
  · exact h

theorem noteFor_wellKept (f : Frame) (h : StoresWellKept s) : StoresWellKept (noteFor f s) := by
  unfold noteFor
  split
  · split
    · exact takeNote_wellKept _ h
    · exact h
  · exact h

/-! ### The cell line -/

theorem endIncomplete_wellKept (h : StoresWellKept s) : StoresWellKept (endIncomplete s) := h
theorem readIdle_wellKept (cells : List LineRun) (h : StoresWellKept s) : StoresWellKept (readIdle cells s) := h

theorem enterRound_wellKept (read : BitVec 4) (h : StoresWellKept s) : StoresWellKept (enterRound read s) :=
  ite_wellKept (withLif_wellKept _ h) (endIncomplete_wellKept h)

/-- The transmit queue is emptied (R37, R38). -/
theorem withTxq_nil_wellKept (h : StoresWellKept s) : StoresWellKept (s.withTxq []) :=
  withTxq_wellKept h (Nat.zero_le _)

theorem execPost_wellKept (read : PostWord) (h : StoresWellKept s) : OutMeets StoresWellKept (execPost read s) := by
  unfold execPost
  split
  · exact outMeets_ite
      (fun _ => ite_wellKept (withRound_wellKept _ h) (withTxq_nil_wellKept (withLif_wellKept _ h))) h
  · exact outMeets_next h

theorem silenceExpiry_wellKept (o : TickOrder) (h : StoresWellKept s) : StoresWellKept (silenceExpiry o s) :=
  ite_wellKept (raise_wellKept _ (openTick_wellKept o (withLif_wellKept _ h))) (withLif_wellKept _ h)

/-! ### The end of a complete round -/

theorem updateTable_wellKept (posts : List PostWord) (w : PostWord) (h : StoresWellKept s) :
    StoresWellKept (updateTable posts w s) :=
  withPvt_wellKept h (List.length_map _)

theorem lineStep_wellKept (cell263 : Bool) (h : StoresWellKept s) : StoresWellKept (lineStep cell263 s) := h

theorem cardStep_wellKept (r : Role) (old : List PvtEntry) (h : StoresWellKept s) :
    StoresWellKept (cardStep r old s) :=
  ite_wellKept (queueCard_wellKept _ (withLif_wellKept _ (setEntry_wellKept _ _ h)))
    (ite_wellKept (queueCard_wellKept _ h) h)

theorem roleConflict_wellKept (r : Role) (h : StoresWellKept s) : StoresWellKept (roleConflict r s) := by
  have emptied := withTxq_nil_wellKept (withLif_wellKept { s.lif with roleConflict := true } h)
  cases r with
  | inspect => exact intakeConflict_wellKept emptied
  | test => exact emptied
  | dispose => exact disposeConflict_wellKept emptied

theorem conflictStep_wellKept (r : Role) (h : StoresWellKept s) : StoresWellKept (conflictStep r s) :=
  ite_wellKept (roleConflict_wellKept r h) h

theorem waitStep_wellKept (h : StoresWellKept s) : StoresWellKept (waitStep s) :=
  withTxq_wellKept h ((List.length_map _).symm ▸ h.blocks.txq)

theorem ageStep_wellKept (h : StoresWellKept s) : StoresWellKept (ageStep s) := by
  unfold ageStep
  split
  · exact withTsq_rest_wellKept h rfl
  · exact withTsq_rest_wellKept h rfl
  · exact withAdm_wellKept _ h
  · exact h

theorem staleStep_wellKept (h : StoresWellKept s) : StoresWellKept (staleStep s) := h

theorem admission_wellKept (h : StoresWellKept s) : StoresWellKept (admission s) :=
  ite_wellKept (withAdm_wellKept _ (withMsu_wellKept _ (enterLocked_wellKept _ h))) h

theorem cardRecord_wellKept (h : StoresWellKept s) : StoresWellKept (cardRecord s) := by
  unfold cardRecord
  split
  · split
    · exact produceLine_wellKept _ h
    · exact h
  · exact h

theorem roleStep_wellKept (r : Role) (h : StoresWellKept s) : StoresWellKept (roleStep r s) := by
  unfold roleStep
  split
  · exact h
  · cases r with
    | inspect => exact directDecision_wellKept (offerDecision_wellKept h)
    | test => exact admission_wellKept h
    | dispose => exact callDecision_wellKept (cardRecord_wellKept h)

theorem completeRound_wellKept (r : Role) (w : PostWord) (posts : List PostWord) (cell263 : Bool)
    (h : StoresWellKept s) : StoresWellKept (completeRound r w posts cell263 s) := by
  have counted := withLif_wellKept { (dropMessage s).lif with roundCounter := (dropMessage s).lif.roundCounter + 1 }
    (dropMessage_wellKept h)
  have viewed := lineStep_wellKept cell263 (updateTable_wellKept posts w counted)
  have carded := conflictStep_wellKept r (cardStep_wellKept r s.pvt viewed)
  have aged := staleStep_wellKept (refreshShare_wellKept (ageStep_wellKept (waitStep_wellKept carded)))
  exact endRound_wellKept (roleStep_wellKept r aged)

theorem execRoundEnd_wellKept (posts : List PostWord) (cell263 : Bool) (h : StoresWellKept s) :
    OutMeets StoresWellKept (execRoundEnd posts cell263 s) := by
  unfold execRoundEnd
  split
  · exact outMeets_ite (fun _ => completeRound_wellKept _ _ _ _ h) h
  · exact outMeets_next h

/-! ### Stops -/

theorem execStopReported_wellKept (h : StoresWellKept s) : OutMeets StoresWellKept (execStopReported s) := by
  have flagged : StoresWellKept ((s.withInputs { s.inputs with estop := true }).withIlk
      { s.ilk with stopFlag := true }) := withIlk_wellKept _ (withInputs_wellKept _ h)
  have acted (r : Role) : StoresWellKept (stopReported r s) := by
    unfold stopReported
    dsimp only
    split
    · exact flagged
    · cases r with
      | inspect => exact intakeStop_wellKept flagged
      | test => exact flagged
      | dispose => exact disposeStop_wellKept flagged
  unfold execStopReported
  split
  · exact outMeets_next h
  · exact outMeets_ite (fun _ => h) (acted _)
  · exact outMeets_next h

theorem execStopEnded_wellKept (h : StoresWellKept s) : OutMeets StoresWellKept (execStopEnded s) := by
  have cleared : StoresWellKept ((s.withInputs { s.inputs with estop := false }).withIlk
      { s.ilk with stopFlag := false }) := withIlk_wellKept _ (withInputs_wellKept _ h)
  have acted (r : Role) : StoresWellKept (stopEnded r s) := by
    unfold stopEnded
    dsimp only
    split
    · exact cleared
    · cases r with
      | inspect => exact ite_wellKept (intakeResume_wellKept cleared) cleared
      | test => exact cleared
      | dispose => exact disposeResume_wellKept cleared
  unfold execStopEnded
  split
  · exact outMeets_next h
  · exact outMeets_ite (fun _ => acted _) h
  · exact outMeets_next h

/-! ### Resets and the release -/

/-- Every store stands empty at a reset (R13, R46, R76, R80, R90, R158). -/
theorem reset_wellKept : StoresWellKept State.reset := by
  refine (storesWellKept_iff _).mpr ⟨Nat.zero_le _, ⟨Nat.zero_le _, Nat.zero_le _, Nat.zero_le _⟩,
    ⟨Nat.zero_le _, Nat.zero_le _⟩, Nat.zero_le _, rfl, slotFits_none, rfl, fun x hx => ?_⟩
  obtain rfl : x = {} := List.eq_of_mem_replicate hx
  exact fun both => nomatch both.1

theorem resetState_wellKept (c : ResetCause) (s : State) : StoresWellKept (resetState c s) :=
  withPending_wellKept _ (withFreeCount_wellKept _ (withLoader_wellKept _ reset_wellKept))

theorem execPinReset_wellKept (h : StoresWellKept s) : OutMeets StoresWellKept (execPinReset s) :=
  outMeets_ite (fun _ => h) (withHistory_wellKept (resetState_wellKept _ s) (rebaseHistory_fits h.blocks.history))

theorem enterFault_wellKept (c : Cause) (h : StoresWellKept s) : StoresWellKept (enterFault c s) := h

theorem releaseReset_wellKept (a : Addr) (r : BitVec 2) (high : Bool) (h : StoresWellKept s) :
    StoresWellKept (releaseReset a r high s) :=
  ite_wellKept (enterFault_wellKept _ (withLoader_wellKept _ h)) (withLoader_wellKept _ (withLoader_wellKept _ h))

theorem startRole_wellKept (r : Role) (seat infeedClear : Bool) (h : StoresWellKept s) :
    StoresWellKept (startRole r seat infeedClear s) := by
  cases r with
  | inspect =>
    have purging := withIeu_wellKept (u := { s.ieu with state := .purge }) h h.blocks.ieu
    exact ite_wellKept (withIeu_wellKept purging h.blocks.ieu) purging
  | test => exact enterIdle_wellKept (withAdm_wellKept _ (withInputs_wellKept _ h))
  | dispose => exact h

theorem takeProfile_wellKept (r : Role) (items : List (Nat × List Byte)) (seat infeedClear : Bool)
    (h : StoresWellKept s) : StoresWellKept (takeProfile r items seat infeedClear s) :=
  startRole_wellKept r seat infeedClear (withLif_wellKept _ (withLoader_wellKept _ (withParams_wellKept _ h)))

theorem checkImage_wellKept (r : Role) (im : List Byte) (seat infeedClear : Bool) (h : StoresWellKept s) :
    StoresWellKept (checkImage r im seat infeedClear s) := by
  unfold checkImage
  split
  · exact enterFault_wellKept _ h
  · split
    · exact enterFault_wellKept _ h
    · exact takeProfile_wellKept _ _ _ _ h

theorem readImage_wellKept (r : Role) (im : List Byte) (seat infeedClear : Bool) (h : StoresWellKept s) :
    StoresWellKept (readImage r im seat infeedClear s) := by
  have counted := withLoader_wellKept { s.loader with readCount := s.loader.readCount + 1 } h
  unfold readImage
  dsimp only
  split
  · exact enterFault_wellKept _ h
  · split
    · exact enterFault_wellKept _ h
    · split
      · exact enterFault_wellKept _ h
      · split
        · exact checkImage_wellKept _ _ _ _ counted
        · split
          · exact counted
          · exact enterFault_wellKept _ counted

theorem execProfileReadComplete_wellKept (im : List Byte) (seat infeedClear : Bool) (h : StoresWellKept s) :
    OutMeets StoresWellKept (execProfileReadComplete im seat infeedClear s) := by
  unfold execProfileReadComplete
  split
  · exact outMeets_next (readImage_wellKept _ _ _ _ h)
  · exact outMeets_next h

/-! ### The commands -/

/-- Every command keeps the stores well. -/
theorem exec_wellKept (h : StoresWellKept s) : ∀ i : Instr, OutMeets StoresWellKept (exec i s)
  | .powerOnReset => outMeets_next (resetState_wellKept _ s)
  | .pinReset => execPinReset_wellKept h
  | .resetRelease a r high => outMeets_ite (fun _ => releaseReset_wellKept a r high h) h
  | .profileReadComplete im seat infeedClear => execProfileReadComplete_wellKept im seat infeedClear h
  | .idleSpan cells => outMeets_ite (fun _ => readIdle_wellKept cells h) h
  | .callMade read => outMeets_ite (fun _ => enterRound_wellKept read h) h
  | .callJoined read => outMeets_ite (fun _ => enterRound_wellKept read h) h
  | .post read => execPost_wellKept read h
  | .incompleteRoundEnd => outMeets_ite (fun _ => endIncomplete_wellKept h) h
  | .contention read => outMeets_ite (fun _ => contend_wellKept read h) h
  | .messageSend read => execMessageSend_wellKept read h
  | .acceptFieldRead read => execAcceptFieldRead_wellKept read h
  | .messageDropped => outMeets_next (dropMessage_wellKept h)
  | .docketOffer f read => outMeets_next (receive_wellKept _ f (fun _ hu => offerFor_wellKept f read hu) h)
  | .releaseCall f read => outMeets_next (receive_wellKept _ f (fun _ hu => callFor_wellKept f read hu) h)
  | .docketDirect f read => outMeets_next (receive_wellKept _ f (fun _ hu => directFor_wellKept f read hu) h)
  | .docketReturn f read => outMeets_next (receive_wellKept _ f (fun _ hu => returnFor_wellKept f read hu) h)
  | .stationCard f => outMeets_next (receive_wellKept _ f (fun _ hu => cardFor_wellKept f hu) h)
  | .verdictNote f => outMeets_next (receive_wellKept _ f (fun _ hu => noteFor_wellKept f hu) h)
  | .roundEnd posts cell263 => execRoundEnd_wellKept posts cell263 h
  | .pacingExpiry => outMeets_next (withLif_wellKept _ h)
  | .keepAliveExpiry => outMeets_next (withLif_wellKept _ h)
  | .silenceExpiry o => outMeets_ite (fun _ => silenceExpiry_wellKept o h) h
  | .sampleTick pins x => execSampleTick_wellKept pins x h
  | .responseComplete => atHead_wellKept (ite_wellKept (completeResponse_wellKept h) h) h
  | .estop o => atHead_wellKept (estopRead_wellKept o h) h
  | .psw o => atHead_wellKept (pswEdge_wellKept o h) h
  | .abort o => atHead_wellKept (abortEdge_wellKept o h) h
  | .lidOpen o => atHead_wellKept (lidRead_wellKept o h) h
  | .seatActive o => atHead_wellKept (seatRead_wellKept o h) h
  | .lidClosed o => atHead_wellKept (lidClosedRead_wellKept o h) h
  | .fillComplete o => atHead_wellKept (fillRead_wellKept o h) h
  | .loadTimeout o => atHead_wellKept (loadExpiry_wellKept o h) h
  | .fillTimeout o => atHead_wellKept (fillExpiry_wellKept o h) h
  | .rampTimeout o => atHead_wellKept (rampExpiry_wellKept o h) h
  | .holdTimerExpiry o => atHead_wellKept (holdExpiry_wellKept o h) h
  | .drainTimerExpiry o => atHead_wellKept (drainExpiry_wellKept o h) h
  | .urgentFlagSet o => atHead_wellKept (patienceExpiry_wellKept o h) h
  | .unloadComplete o => atHead_wellKept (unloadRead_wellKept o h) h
  | .unloadTimeout o => atHead_wellKept (unloadExpiry_wellKept o h) h
  | .clearEdge o => atHead_wellKept (clearTaken_wellKept o h) h
  | .stopReported => execStopReported_wellKept h
  | .stopEnded => execStopEnded_wellKept h
  | .infeedClear => execInfeedClear_wellKept h
  | .readerLine l => outMeets_ite (fun _ => readerRead_wellKept l h) h
  | .period l => outMeets_next (checkedLine_wellKept l _ (fun a _ hu => takePeriod_wellKept a hu) h)
  | .mass l => outMeets_next (checkedLine_wellKept l _ (fun a _ hu => takeMass_wellKept a hu) h)
  | .find l => outMeets_next (checkedLine_wellKept l _ (fun a _ hu => takeFind_wellKept a hu) h)
  | .close l => outMeets_next (checkedLine_wellKept l _ (fun a _ hu => takeClose_wellKept a hu) h)
  | .cancel l => outMeets_next (checkedLine_wellKept l _ (fun a _ hu => takeCancel_wellKept a hu) h)
  | .clearEntry l => outMeets_next (checkedLine_wellKept l _ (fun a _ hu => takeClear_wellKept a hu) h)
  | .unknownKeyword l => outMeets_next (checkedLine_wellKept l _ (fun _ _ hu => hu) h)
  | .docketJoin => outMeets_ite (fun _ => tryJoin_wellKept h) h
  | .pulseEnd c => execPulseEnd_wellKept c h
  | .terminalReplySent => execTerminalReplySent_wellKept h
  | .markReaderLine l => outMeets_ite (fun _ => markRead_wellKept l h) h
  | .linkClear r => outMeets_ite (fun _ => linkClear_wellKept r h) h
  | .linkLoad r => outMeets_ite (fun _ => linkLoad_wellKept r h) h
  | .linkQuery r => outMeets_ite (fun _ => linkQuery_wellKept r h) h
  | .linkStrike r => outMeets_ite (fun _ => linkStrike_wellKept r h) h
  | .strikeTimeout => outMeets_ite (fun _ => strikeExpiry_wellKept h) h
  | .punchDone => outMeets_ite (fun _ => punchDone_wellKept h) h
  | .punchTimeout => outMeets_ite (fun _ => punchExpiry_wellKept h) h
  | .punchPulseEnd => outMeets_ite (fun _ => withDsu_rest_wellKept h rfl rfl rfl) h
  | .laneReleaseEnd => outMeets_ite (fun _ => laneEnd_wellKept h) h
  | .disposeClear r => outMeets_ite (fun _ => panelClear_wellKept r h) h
  | .arrivalTimeout i => outMeets_ite (fun _ => finishMissing_wellKept i h) h
  | .callTimeout => outMeets_ite (fun _ => callExpiry_wellKept h) h
  | .recordLineSent cts => outMeets_ite (fun _ => sendRecord_wellKept cts h) h
  | .lampRepeat => outMeets_ite (fun _ => h) (withLamp_wellKept _ h)

end

/-- Settles O5: every command keeps each store within its capacity and its form, so the step does. -/
theorem storesStayWellKept : Obligations.StoresStayWellKept :=
  fun _ _ h ran => step_meets (fun _ q hu => withPending_wellKept q hu) (fun i _ hu => exec_wellKept hu i) h ran

/-- Settles O4: at a reset every queue is empty, every age is 0 and no head has a state. -/
theorem invariantsHoldAtReset : Obligations.InvariantsHoldAtReset := by
  unfold Obligations.InvariantsHoldAtReset MarksPassedOnly WorkLineKeepsSlot AgesBounded SafeMatchesResponse
  refine ⟨reset_wellKept, List.Pairwise.nil, List.Pairwise.nil, ?_, ?_, ?_⟩
  · exact ⟨fun m no => absurd no Bool.false_ne_true, Nat.zero_le 1, fun no => absurd rfl no⟩
  · exact ⟨Nat.zero_le 63, Nat.zero_le 31, Nat.zero_le 31⟩
  · exact ⟨by decide, fun _ no => absurd no List.not_mem_nil, fun no => absurd no (by decide), fun _ => rfl⟩

end Sys2Proof.Machine
end

section
/-! Which block of the state a family of commands may change: the commands of intake, of disposal and of a head, each with
the frame of its family (files 04, 06, 10). -/

namespace Sys2Proof.Machine

theorem OutMeets.mono {P Q : State → Prop} {o : Out} (h : OutMeets P o) (imp : ∀ t, P t → Q t) : OutMeets Q o :=
  fun t ran => imp t (h t ran)

theorem outMeets_next_iff {P : State → Prop} {s : State} : OutMeets P (.next s) ↔ P s :=
  ⟨fun h => h s rfl, outMeets_next⟩

/-- The commands of the intake unit and its two ports (file 04). -/
def intakeCommand : Instr → Bool
  | .infeedClear | .readerLine _ | .period _ | .mass _ | .find _ | .close _ | .cancel _ | .clearEntry _
  | .unknownKeyword _ | .docketJoin | .pulseEnd _ | .terminalReplySent => true
  | _ => false

/-- The commands of the disposal unit, its link and its record port (file 10). -/
def disposalCommand : Instr → Bool
  | .markReaderLine _ | .linkClear _ | .linkLoad _ | .linkQuery _ | .linkStrike _ | .strikeTimeout | .punchDone
  | .punchTimeout | .punchPulseEnd | .laneReleaseEnd | .disposeClear _ | .arrivalTimeout _ | .callTimeout
  | .recordLineSent _ => true
  | _ => false

/-- The events of a test head but for its samples and messages (files 06, 09). -/
def headEvent : Instr → Bool
  | .responseComplete | .estop _ | .psw _ | .abort _ | .lidOpen _ | .seatActive _ | .lidClosed _ | .fillComplete _
  | .loadTimeout _ | .fillTimeout _ | .rampTimeout _ | .holdTimerExpiry _ | .drainTimerExpiry _ | .urgentFlagSet _
  | .unloadComplete _ | .unloadTimeout _ | .clearEdge _ => true
  | _ => false

/-- A terminal entry leaves what is outside intake, whatever it does once its checks have passed. -/
theorem checkedEntry_outsideIntake (l : PortLine) (form : List Text → Bool) (act : List Text → State → State)
    (keeps : ∀ a u, (act a u).outsideIntake = u.outsideIntake) (s : State) :
    (terminalLine l (entryChecks form act) s).outsideIntake = s.outsideIntake :=
  terminalLine_outsideIntake l _ (fun _ u => entryChecks_outsideIntake form act _ keeps u) s

/-- A command of intake leaves everything outside intake. -/
theorem intakeCommand_frame (s : State) (i : Instr) (own : intakeCommand i = true) :
    OutMeets (fun t => t.outsideIntake = s.outsideIntake) (exec i s) := by
  cases i with
  | infeedClear => exact outMeets_ite (fun _ => rfl) rfl
  | readerLine l => exact outMeets_ite (fun _ => readerRead_outsideIntake l s) rfl
  | period l => exact outMeets_next (checkedEntry_outsideIntake l _ _ takePeriod_outsideIntake s)
  | mass l => exact outMeets_next (checkedEntry_outsideIntake l _ _ takeMass_outsideIntake s)
  | find l => exact outMeets_next (checkedEntry_outsideIntake l _ _ takeFind_outsideIntake s)
  | close l => exact outMeets_next (checkedEntry_outsideIntake l _ _ takeClose_outsideIntake s)
  | cancel l => exact outMeets_next (checkedEntry_outsideIntake l _ _ takeCancel_outsideIntake s)
  | clearEntry l => exact outMeets_next (checkedEntry_outsideIntake l _ _ takeClear_outsideIntake s)
  | unknownKeyword l => exact outMeets_next (checkedEntry_outsideIntake l _ _ (fun _ _ => rfl) s)
  | docketJoin => exact outMeets_ite (fun _ => tryJoin_outsideIntake s) rfl
  | pulseEnd c =>
    show OutMeets _ (execPulseEnd c s)
    unfold execPulseEnd
    split
    · cases c <;> exact outMeets_next rfl
    · exact outMeets_next rfl
  | terminalReplySent =>
    show OutMeets _ (execTerminalReplySent s)
    unfold execTerminalReplySent
    split <;> exact outMeets_next rfl
  | _ => exact absurd own Bool.false_ne_true

/-- A command of disposal leaves everything outside disposal. -/
theorem disposalCommand_frame (s : State) (i : Instr) (own : disposalCommand i = true) :
    OutMeets (fun t => t.outsideDsu = s.outsideDsu) (exec i s) := by
  cases i with
  | markReaderLine l => exact outMeets_ite (fun _ => markRead_outsideDsu l s) rfl
  | linkClear r => exact outMeets_ite (fun _ => linkClear_outsideDsu r s) rfl
  | linkLoad r => exact outMeets_ite (fun _ => linkLoad_outsideDsu r s) rfl
  | linkQuery r => exact outMeets_ite (fun _ => linkQuery_outsideDsu r s) rfl
  | linkStrike r => exact outMeets_ite (fun _ => linkStrike_outsideDsu r s) rfl
  | strikeTimeout => exact outMeets_ite (fun _ => strikeExpiry_outsideDsu s) rfl
  | punchDone => exact outMeets_ite (fun _ => punchDone_outsideDsu s) rfl
  | punchTimeout => exact outMeets_ite (fun _ => punchExpiry_outsideDsu s) rfl
  | punchPulseEnd => exact outMeets_ite (fun _ => rfl) rfl
  | laneReleaseEnd => exact outMeets_ite (fun _ => laneEnd_outsideDsu s) rfl
  | disposeClear r => exact outMeets_ite (fun _ => panelClear_outsideDsu r s) rfl
  | arrivalTimeout i => exact outMeets_ite (fun _ => finishMissing_outsideDsu i s) rfl
  | callTimeout => exact outMeets_ite (fun _ => callExpiry_outsideDsu s) rfl
  | recordLineSent cts => exact outMeets_ite (fun _ => sendRecord_outsideDsu cts s) rfl
  | _ => exact absurd own Bool.false_ne_true

/-- An event of a head leaves everything outside the head's blocks. -/
theorem headEvent_frame (s : State) (i : Instr) (own : headEvent i = true) :
    OutMeets (fun t => t.outsideHead = s.outsideHead) (exec i s) := by
  cases i with
  | responseComplete => exact outMeets_next (atHead_outsideHead _ (fun t => by
      split
      · exact completeResponse_outsideHead t
      · rfl) s)
  | estop o => exact outMeets_next (atHead_outsideHead _ (estopRead_outsideHead o) s)
  | psw o => exact outMeets_next (atHead_outsideHead _ (pswEdge_outsideHead o) s)
  | abort o => exact outMeets_next (atHead_outsideHead _ (abortEdge_outsideHead o) s)
  | lidOpen o => exact outMeets_next (atHead_outsideHead _ (lidRead_outsideHead o) s)
  | seatActive o => exact outMeets_next (atHead_outsideHead _ (seatRead_outsideHead o) s)
  | lidClosed o => exact outMeets_next (atHead_outsideHead _ (lidClosedRead_outsideHead o) s)
  | fillComplete o => exact outMeets_next (atHead_outsideHead _ (fillRead_outsideHead o) s)
  | loadTimeout o => exact outMeets_next (atHead_outsideHead _ (loadExpiry_outsideHead o) s)
  | fillTimeout o => exact outMeets_next (atHead_outsideHead _ (fillExpiry_outsideHead o) s)
  | rampTimeout o => exact outMeets_next (atHead_outsideHead _ (rampExpiry_outsideHead o) s)
  | holdTimerExpiry o => exact outMeets_next (atHead_outsideHead _ (holdExpiry_outsideHead o) s)
  | drainTimerExpiry o => exact outMeets_next (atHead_outsideHead _ (drainExpiry_outsideHead o) s)
  | urgentFlagSet o => exact outMeets_next (atHead_outsideHead _ (patienceExpiry_outsideHead o) s)
  | unloadComplete o => exact outMeets_next (atHead_outsideHead _ (unloadRead_outsideHead o) s)
  | unloadTimeout o => exact outMeets_next (atHead_outsideHead _ (unloadExpiry_outsideHead o) s)
  | clearEdge o => exact outMeets_next (atHead_outsideHead _ (clearTaken_outsideHead o) s)
  | _ => exact absurd own Bool.false_ne_true

end Sys2Proof.Machine
end

section
/-! The ages that a head posts stay within their fields (R29, R116): only a complete round raises one, and no further than
its maximum; an entry to IDLE, DONE or SAFE, a zero reading and an admission set one to 0. -/

namespace Sys2Proof.Machine

section
variable {s : State}

/-- The ages stand in the sequencer and in the admission logic. -/
theorem AgesBounded.of_blocks {t : State} (h : AgesBounded s) (tsq : t.tsq = s.tsq) (adm : t.adm = s.adm) :
    AgesBounded t := by
  unfold AgesBounded
  rw [tsq, adm]
  exact h

theorem AgesBounded.of_outsideIntake {t : State} (h : AgesBounded s) (same : t.outsideIntake = s.outsideIntake) :
    AgesBounded t :=
  h.of_blocks (congrArg State.tsq same :) (congrArg State.adm same :)

theorem AgesBounded.of_outsideDsu {t : State} (h : AgesBounded s) (same : t.outsideDsu = s.outsideDsu) :
    AgesBounded t :=
  h.of_blocks (congrArg State.tsq same :) (congrArg State.adm same :)

/-- Both ways of a choice. -/
theorem ite_agesBounded {c : Prop} [Decidable c] {a b : State} (yes : AgesBounded a) (no : AgesBounded b) :
    AgesBounded (if c then a else b) := by
  split
  · exact yes
  · exact no

/-! ### What sets an age to 0 -/

theorem idleAge_zero (x : Tsq) (h : AgesBounded s) (idle : x.idleAge = 0) (done : x.doneAge = s.tsq.doneAge) :
    AgesBounded (s.withTsq x) :=
  ⟨idle ▸ Nat.zero_le _, done ▸ h.2.1, h.2.2⟩

theorem doneAge_zero (x : Tsq) (h : AgesBounded s) (idle : x.idleAge = s.tsq.idleAge) (done : x.doneAge = 0) :
    AgesBounded (s.withTsq x) :=
  ⟨idle ▸ h.1, done ▸ Nat.zero_le _, h.2.2⟩

theorem waitAge_zero (x : Adm) (h : AgesBounded s) (wait : x.waitAge = 0) : AgesBounded (s.withAdm x) :=
  ⟨h.1, h.2.1, wait ▸ Nat.zero_le _⟩

/-! ### The states of a head -/

theorem openTick_agesBounded (o : TickOrder) (h : AgesBounded s) : AgesBounded (openTick o s) := by
  cases o with
  | beforeSample p x => exact h
  | afterSample => exact h

theorem enterOos_agesBounded (c : Cause) (h : AgesBounded s) : AgesBounded (enterOos c s) := h

theorem enterDone_agesBounded (h : AgesBounded s) : AgesBounded (enterDone s) :=
  doneAge_zero (s := enterPhase .done s) _ h rfl rfl

theorem enterLocked_agesBounded (k : HeadState) (h : AgesBounded s) : AgesBounded (enterLocked k s) := h

theorem enterIdle_agesBounded (h : AgesBounded s) : AgesBounded (enterIdle s) := by
  unfold enterIdle
  split
  · exact enterOos_agesBounded _ h
  · split
    · exact enterOos_agesBounded _ h
    · exact idleAge_zero (s := enterPhase .idle s) _ h rfl rfl

theorem onTest_agesBounded (f : TestPart → TestPart) (h : AgesBounded s) : AgesBounded (onTest f s) := h
theorem assembleSlot_agesBounded (h : AgesBounded s) : AgesBounded (assembleSlot s) := h
theorem leaveHolding_agesBounded (h : AgesBounded s) : AgesBounded (leaveHolding s) := h

/-! ### The latch and the response -/

theorem latchOne_agesBounded (c : Cause) (h : AgesBounded s) : AgesBounded (latchOne c s) :=
  ite_agesBounded (ite_agesBounded (onTest_agesBounded _ h) h) h

theorem latchAll_agesBounded (cs : List Cause) (h : AgesBounded s) : AgesBounded (latchAll cs s) := by
  induction cs generalizing s with
  | nil => exact h
  | cons c cs ih => exact ih (latchOne_agesBounded c h)

theorem enterSafe_agesBounded (h : AgesBounded s) : AgesBounded (enterSafe s) := by
  unfold enterSafe
  split
  · exact h
  · exact h
  · rename_i k _ _
    dsimp only
    split
    · have left : AgesBounded (if k == .holding then leaveHolding s else s) :=
        ite_agesBounded (leaveHolding_agesBounded h) h
      exact waitAge_zero _ left rfl
    · exact h

theorem reenter_agesBounded (k : HeadState) (h : AgesBounded s) : AgesBounded (reenter k s) := by
  unfold reenter
  split
  · exact enterIdle_agesBounded h
  · exact enterDone_agesBounded h
  · exact ite_agesBounded h h
  · exact enterOos_agesBounded _ h
  · exact h

theorem leaveSafe_agesBounded (h : AgesBounded s) : AgesBounded (leaveSafe s) := by
  unfold leaveSafe
  split
  · have assembled : AgesBounded (assembleSlot (s.withTsq { s.tsq with safeFrom := none })) := h
    exact ite_agesBounded (enterLocked_agesBounded _ assembled) (enterDone_agesBounded assembled)
  · split
    · exact reenter_agesBounded _ h
    · exact h

theorem chooseNext_agesBounded (h : AgesBounded s) : AgesBounded (chooseNext s) := by
  unfold chooseNext
  split
  · exact leaveSafe_agesBounded h
  · exact ite_agesBounded h (leaveSafe_agesBounded h)

theorem respond_agesBounded (h : AgesBounded s) : AgesBounded (respond s) := by
  unfold respond
  split
  · exact h
  · split
    · exact chooseNext_agesBounded (enterSafe_agesBounded h)
    · exact ite_agesBounded (chooseNext_agesBounded h) h

theorem raise_agesBounded (cs : List Cause) (h : AgesBounded s) : AgesBounded (raise cs s) :=
  respond_agesBounded (latchAll_agesBounded cs h)

theorem completeResponse_agesBounded (h : AgesBounded s) : AgesBounded (completeResponse s) := by
  unfold completeResponse
  split
  · exact h
  · exact chooseNext_agesBounded h

/-! ### The events of a head -/

theorem inputRead_agesBounded (f : Pins → Pins) (o : TickOrder) (h : AgesBounded s) :
    AgesBounded (withInput f (openTick o s)) := openTick_agesBounded o h

theorem pswEdge_agesBounded (o : TickOrder) (h : AgesBounded s) : AgesBounded (pswEdge o s) :=
  ite_agesBounded (respond_agesBounded (latchOne_agesBounded _ (inputRead_agesBounded _ o h))) h

theorem abortEdge_agesBounded (o : TickOrder) (h : AgesBounded s) : AgesBounded (abortEdge o s) :=
  ite_agesBounded (respond_agesBounded (latchOne_agesBounded _ (inputRead_agesBounded _ o h))) h

theorem seatRead_agesBounded (o : TickOrder) (h : AgesBounded s) : AgesBounded (seatRead o s) := by
  have read := inputRead_agesBounded (fun p => { p with seat := true }) o h
  exact ite_agesBounded read (ite_agesBounded read read)

theorem lidClosedRead_agesBounded (o : TickOrder) (h : AgesBounded s) : AgesBounded (lidClosedRead o s) := by
  have read := inputRead_agesBounded (fun p => { p with lidClosed := true }) o h
  exact ite_agesBounded read read

theorem fillRead_agesBounded (o : TickOrder) (h : AgesBounded s) : AgesBounded (fillRead o s) := by
  have read := inputRead_agesBounded (fun p => { p with jacketFull := true, bleedWet := true }) o h
  exact ite_agesBounded read read

theorem loadExpiry_agesBounded (o : TickOrder) (h : AgesBounded s) : AgesBounded (loadExpiry o s) :=
  ite_agesBounded (enterDone_agesBounded (onTest_agesBounded _ (openTick_agesBounded o h))) h

theorem expiryCause_agesBounded (o : TickOrder) (c : Cause) (h : AgesBounded s) : AgesBounded (expiryCause o c s) := by
  cases o with
  | beforeSample p x => exact raise_agesBounded _ h
  | afterSample => exact raise_agesBounded _ h

theorem unloadRead_agesBounded (o : TickOrder) (h : AgesBounded s) : AgesBounded (unloadRead o s) := by
  have read := inputRead_agesBounded (fun p => { p with seat := false, unloadClear := true }) o h
  exact ite_agesBounded (enterIdle_agesBounded read) read

theorem clearTaken_agesBounded (o : TickOrder) (h : AgesBounded s) : AgesBounded (clearTaken o s) := by
  have read := inputRead_agesBounded (fun p => { p with clear := true }) o h
  exact ite_agesBounded
    (ite_agesBounded
      (ite_agesBounded (ite_agesBounded (enterDone_agesBounded read) (enterIdle_agesBounded read)) read) read) h

/-! ### The sample tick -/

theorem advanceTimers_agesBounded (h : AgesBounded s) : AgesBounded (advanceTimers s) := ite_agesBounded h h

theorem tickRead_agesBounded (p : Pins) (x : Sample) (h : AgesBounded s) : AgesBounded (tickRead p x s) :=
  advanceTimers_agesBounded (s := senseInputs p s) h

theorem enterReading_agesBounded (k : HeadState) (h : AgesBounded s) : AgesBounded (enterReading k s) :=
  enterLocked_agesBounded k h

theorem raisePeak_agesBounded (p : Nat) (h : AgesBounded s) : AgesBounded (raisePeak p s) := h

theorem enterHolding_agesBounded (p : Nat) (h : AgesBounded s) : AgesBounded (enterHolding p s) :=
  onTest_agesBounded (fun t => { t with holdStart := some s.roundStamp }) (enterReading_agesBounded .holding h)

theorem usePressure_agesBounded (owed : Bool) (h : AgesBounded s) : AgesBounded (usePressure owed s) := by
  unfold usePressure
  dsimp only
  split
  · exact ite_agesBounded (enterHolding_agesBounded _ (raisePeak_agesBounded _ h)) (raisePeak_agesBounded _ h)
  · exact raisePeak_agesBounded _ h
  · exact ite_agesBounded (enterReading_agesBounded _ h) h
  · exact ite_agesBounded (raisePeak_agesBounded _ h) h
  · exact h

theorem takeReading_agesBounded (k : HeadState) (sum t : Nat) (h : AgesBounded s) :
    AgesBounded (takeReading k sum t s) := by
  unfold takeReading
  split
  · exact waitAge_zero _ (enterLocked_agesBounded .waitRamp (onTest_agesBounded _ h)) rfl
  · exact enterLocked_agesBounded .venting (leaveHolding_agesBounded (onTest_agesBounded _ h))
  · exact enterLocked_agesBounded .draining (assembleSlot_agesBounded (onTest_agesBounded _ h))
  · exact h

theorem judgeWindow_agesBounded (k : HeadState) (w : Window) (h : AgesBounded s) : AgesBounded (judgeWindow k w s) :=
  ite_agesBounded (ite_agesBounded (takeReading_agesBounded _ _ _ h) (raise_agesBounded _ h))
    (ite_agesBounded (raise_agesBounded _ h) h)

theorem useWindow_agesBounded (k : HeadState) (x : Sample) (h : AgesBounded s) : AgesBounded (useWindow k x s) :=
  ite_agesBounded h (ite_agesBounded h (ite_agesBounded h (ite_agesBounded (judgeWindow_agesBounded _ _ h) h)))

theorem windowStage_agesBounded (phase : Option HeadState) (x : Sample) (h : AgesBounded s) :
    AgesBounded (windowStage phase x s) := by
  unfold windowStage
  split
  · exact ite_agesBounded (useWindow_agesBounded _ x h) h
  · exact h

theorem headSample_agesBounded (p : Pins) (x : Sample) (h : AgesBounded s) : AgesBounded (headSample p x s) :=
  windowStage_agesBounded _ x (raise_agesBounded _ (usePressure_agesBounded _ (tickRead_agesBounded p x h)))

theorem execSampleTick_agesBounded (p : Pins) (x : Sample) (h : AgesBounded s) :
    OutMeets AgesBounded (execSampleTick p x s) := by
  unfold execSampleTick
  split
  · exact outMeets_next (headSample_agesBounded p x h)
  · exact outMeets_next h
  · exact outMeets_next h
  · exact outMeets_next h

/-! ### Messages -/

theorem contend_agesBounded (k : Key) (h : AgesBounded s) : AgesBounded (contend k s) := ite_agesBounded h h

theorem unaccepted_agesBounded (m : TxMsg) (h : AgesBounded s) : AgesBounded (unaccepted m s) := by
  unfold unaccepted unacceptedEffect
  split <;> exact h

theorem sendFrame_agesBounded (read : List Byte) (m : TxMsg) (k : Key) (h : AgesBounded s) :
    AgesBounded (sendFrame read m k s) :=
  ite_agesBounded h (ite_agesBounded (unaccepted_agesBounded m h) h)

theorem execMessageSend_agesBounded (read : List Byte) (h : AgesBounded s) :
    OutMeets AgesBounded (execMessageSend read s) := by
  unfold execMessageSend
  split
  · exact outMeets_ite (fun _ => sendFrame_agesBounded _ _ _ h) h
  · exact outMeets_next h

theorem returnTaken_agesBounded (h : AgesBounded s) : AgesBounded (returnTaken s) :=
  ite_agesBounded (ite_agesBounded (enterIdle_agesBounded h) h) (ite_agesBounded h h)

theorem acceptedEffect_agesBounded (k : MsgKind) (a : Addr) (h : AgesBounded s) :
    AgesBounded (acceptedEffect k a s) := by
  cases k with
  | docketReturn => exact returnTaken_agesBounded h
  | _ => exact h

theorem readAccept_agesBounded (read : Byte) (m : TxMsg) (h : AgesBounded s) : AgesBounded (readAccept read m s) := by
  unfold readAccept
  split
  · exact acceptedEffect_agesBounded m.kind _ (s := removeContender s) h
  · exact unaccepted_agesBounded m h

theorem execAcceptFieldRead_agesBounded (read : Byte) (h : AgesBounded s) :
    OutMeets AgesBounded (execAcceptFieldRead read s) := by
  unfold execAcceptFieldRead
  split
  · exact outMeets_ite (fun _ => readAccept_agesBounded read _ h) h
  · exact outMeets_next h

theorem dropMessage_agesBounded (h : AgesBounded s) : AgesBounded (dropMessage s) := by
  unfold dropMessage
  split
  · rename_i m _
    cases m.kind with
    | docketReturn => exact ite_agesBounded h (ite_agesBounded h h)
    | _ => exact h
  · exact h

/-- A received frame keeps the ages when what takes it does. -/
theorem receive_agesBounded (k : MsgKind) (f : Frame) {take : State → State}
    (keeps : ∀ u, AgesBounded u → AgesBounded (take u)) (h : AgesBounded s) : AgesBounded (receive k f take s) :=
  ite_agesBounded (ite_agesBounded h (ite_agesBounded (keeps _ h) h)) h

theorem queueMsg_agesBounded (m : TxMsg) (h : AgesBounded s) : AgesBounded (queueMsg m s) :=
  h.of_outsideIntake (queueMsg_outsideIntake m s)

theorem offerFor_agesBounded (f : Frame) (read : Byte) (h : AgesBounded s) : AgesBounded (offerFor f read s) := by
  unfold offerFor
  split
  · split
    · exact ite_agesBounded (ite_agesBounded h h) h
    · exact h
  · exact h

theorem callFor_agesBounded (f : Frame) (read : Byte) (h : AgesBounded s) : AgesBounded (callFor f read s) :=
  ite_agesBounded (ite_agesBounded (queueMsg_agesBounded _ (s := State.withTsq _ _) h) h) h

theorem directFor_agesBounded (f : Frame) (read : Byte) (h : AgesBounded s) : AgesBounded (directFor f read s) := by
  unfold directFor
  split
  · split
    · exact ite_agesBounded (ite_agesBounded h h) h
    · exact h
  · exact h

theorem returnAccepted_agesBounded (d : Docket) (h : AgesBounded s) : AgesBounded (returnAccepted d s) :=
  h.of_outsideDsu (returnAccepted_outsideDsu d s)

theorem returnFor_agesBounded (f : Frame) (read : Byte) (h : AgesBounded s) : AgesBounded (returnFor f read s) := by
  unfold returnFor
  split
  · split
    · exact ite_agesBounded
        (ite_agesBounded (returnAccepted_agesBounded _ (s := withRound _ s) h) h) h
    · exact h
  · exact h

theorem refreshShare_agesBounded (h : AgesBounded s) : AgesBounded (refreshShare s) := ite_agesBounded h h

theorem cardFor_agesBounded (f : Frame) (h : AgesBounded s) : AgesBounded (cardFor f s) := by
  unfold cardFor
  dsimp only
  split
  · split
    · exact refreshShare_agesBounded h
    · exact h
  · exact h

theorem noteFor_agesBounded (f : Frame) (h : AgesBounded s) : AgesBounded (noteFor f s) := by
  unfold noteFor
  split
  · split
    · exact h
    · exact h
  · exact h

/-! ### The line and the end of a complete round -/

theorem enterRound_agesBounded (read : BitVec 4) (h : AgesBounded s) : AgesBounded (enterRound read s) :=
  ite_agesBounded h h

theorem execPost_agesBounded (read : PostWord) (h : AgesBounded s) : OutMeets AgesBounded (execPost read s) := by
  unfold execPost
  split
  · exact outMeets_ite (fun _ => ite_agesBounded h h) h
  · exact outMeets_next h

theorem silenceExpiry_agesBounded (o : TickOrder) (h : AgesBounded s) : AgesBounded (silenceExpiry o s) :=
  ite_agesBounded (raise_agesBounded _ (openTick_agesBounded o (s := State.withLif _ _) h)) h

theorem cardStep_agesBounded (r : Role) (old : List PvtEntry) (h : AgesBounded s) : AgesBounded (cardStep r old s) := by
  obtain ⟨q, v, e⟩ := cardStep_frame r old s
  rw [e]
  exact h

theorem conflictStep_agesBounded (r : Role) (h : AgesBounded s) : AgesBounded (conflictStep r s) := by
  refine ite_agesBounded ?_ h
  cases r <;> exact h

/-- The one step that raises an age raises it to its maximum at most (R29, R116). -/
theorem ageStep_agesBounded (h : AgesBounded s) : AgesBounded (ageStep s) := by
  obtain ⟨idle, done, wait⟩ := h
  unfold ageStep
  split
  · exact ⟨Nat.min_le_left _ _, done, wait⟩
  · exact ⟨idle, Nat.min_le_left _ _, wait⟩
  · exact ⟨idle, done, Nat.min_le_left _ _⟩
  · exact ⟨idle, done, wait⟩

theorem admission_agesBounded (h : AgesBounded s) : AgesBounded (admission s) :=
  ite_agesBounded (waitAge_zero _ h rfl) h

theorem cardRecord_agesBounded (h : AgesBounded s) : AgesBounded (cardRecord s) := by
  unfold cardRecord
  split
  · split
    · exact h.of_outsideDsu (produceLine_outsideDsu _ s)
    · exact h
  · exact h

theorem roleStep_agesBounded (r : Role) (h : AgesBounded s) : AgesBounded (roleStep r s) := by
  refine ite_agesBounded h ?_
  cases r with
  | inspect =>
    exact (h.of_outsideIntake (offerDecision_outsideIntake s)).of_outsideIntake (directDecision_outsideIntake _)
  | test => exact admission_agesBounded h
  | dispose => exact (cardRecord_agesBounded h).of_outsideDsu (callDecision_outsideDsu _)

theorem completeRound_agesBounded (r : Role) (w : PostWord) (posts : List PostWord) (cell263 : Bool)
    (h : AgesBounded s) : AgesBounded (completeRound r w posts cell263 s) := by
  have carded := conflictStep_agesBounded r (cardStep_agesBounded r s.pvt
    (s := lineStep cell263 (updateTable posts w ((dropMessage s).withLif
      { (dropMessage s).lif with roundCounter := (dropMessage s).lif.roundCounter + 1 })))
    (dropMessage_agesBounded h))
  have aged := refreshShare_agesBounded (ageStep_agesBounded (s := waitStep _) carded)
  exact ite_agesBounded (roleStep_agesBounded r (s := staleStep _) aged) (roleStep_agesBounded r (s := staleStep _) aged)

theorem execRoundEnd_agesBounded (posts : List PostWord) (cell263 : Bool) (h : AgesBounded s) :
    OutMeets AgesBounded (execRoundEnd posts cell263 s) := by
  unfold execRoundEnd
  split
  · exact outMeets_ite (fun _ => completeRound_agesBounded _ _ _ _ h) h
  · exact outMeets_next h

/-! ### Stops, resets and the release -/

theorem execStopReported_agesBounded (h : AgesBounded s) : OutMeets AgesBounded (execStopReported s) := by
  have flagged : AgesBounded ((s.withInputs { s.inputs with estop := true }).withIlk
      { s.ilk with stopFlag := true }) := h
  have acted (r : Role) : AgesBounded (stopReported r s) := by
    refine ite_agesBounded flagged ?_
    cases r with
    | inspect => exact flagged.of_outsideIntake (intakeStop_outsideIntake _)
    | test => exact flagged
    | dispose => exact flagged.of_outsideDsu (disposeStop_outsideDsu _)
  unfold execStopReported
  split
  · exact outMeets_next h
  · exact outMeets_ite (fun _ => h) (acted _)
  · exact outMeets_next h

theorem execStopEnded_agesBounded (h : AgesBounded s) : OutMeets AgesBounded (execStopEnded s) := by
  have cleared : AgesBounded ((s.withInputs { s.inputs with estop := false }).withIlk
      { s.ilk with stopFlag := false }) := h
  have acted (r : Role) : AgesBounded (stopEnded r s) := by
    refine ite_agesBounded cleared ?_
    cases r with
    | inspect => exact ite_agesBounded (cleared.of_outsideIntake (intakeResume_outsideIntake _)) cleared
    | test => exact cleared
    | dispose => exact cleared.of_outsideDsu (disposeResume_outsideDsu _)
  unfold execStopEnded
  split
  · exact outMeets_next h
  · exact outMeets_ite (fun _ => acted _) h
  · exact outMeets_next h

/-- Every age is 0 after a reset (R90, R113). -/
theorem resetState_agesBounded (c : ResetCause) (s : State) : AgesBounded (resetState c s) :=
  ⟨Nat.zero_le _, Nat.zero_le _, Nat.zero_le _⟩

theorem startRole_agesBounded (r : Role) (seat infeedClear : Bool) (h : AgesBounded s) :
    AgesBounded (startRole r seat infeedClear s) := by
  cases r with
  | inspect => exact ite_agesBounded h h
  | test => exact enterIdle_agesBounded (s := State.withAdm _ _) h
  | dispose => exact h

theorem checkImage_agesBounded (r : Role) (im : List Byte) (seat infeedClear : Bool) (h : AgesBounded s) :
    AgesBounded (checkImage r im seat infeedClear s) := by
  unfold checkImage
  split
  · exact h
  · split
    · exact h
    · exact startRole_agesBounded r seat infeedClear (s := releaseLine _) h

theorem readImage_agesBounded (r : Role) (im : List Byte) (seat infeedClear : Bool) (h : AgesBounded s) :
    AgesBounded (readImage r im seat infeedClear s) :=
  ite_agesBounded h (ite_agesBounded h (ite_agesBounded h
    (ite_agesBounded (checkImage_agesBounded _ _ _ _ (s := State.withLoader _ _) h) (ite_agesBounded h h))))

theorem execProfileReadComplete_agesBounded (im : List Byte) (seat infeedClear : Bool) (h : AgesBounded s) :
    OutMeets AgesBounded (execProfileReadComplete im seat infeedClear s) := by
  unfold execProfileReadComplete
  split
  · exact outMeets_next (readImage_agesBounded _ _ _ _ h)
  · exact outMeets_next h

/-! ### The commands -/

/-- A head's event, done at a head alone, keeps the ages when it does. -/
theorem atHead_agesBounded {f : State → State} (done : AgesBounded (f s)) (h : AgesBounded s) :
    OutMeets AgesBounded (.next (atHead f s)) :=
  outMeets_next (ite_agesBounded done h)

theorem headEvent_agesBounded (h : AgesBounded s) (i : Instr) (own : headEvent i = true) :
    OutMeets AgesBounded (exec i s) := by
  cases i with
  | responseComplete => exact atHead_agesBounded (ite_agesBounded (completeResponse_agesBounded h) h) h
  | estop o => exact atHead_agesBounded (raise_agesBounded _ (inputRead_agesBounded _ o h)) h
  | psw o => exact atHead_agesBounded (pswEdge_agesBounded o h) h
  | abort o => exact atHead_agesBounded (abortEdge_agesBounded o h) h
  | lidOpen o => exact atHead_agesBounded (raise_agesBounded _ (inputRead_agesBounded _ o h)) h
  | seatActive o => exact atHead_agesBounded (seatRead_agesBounded o h) h
  | lidClosed o => exact atHead_agesBounded (lidClosedRead_agesBounded o h) h
  | fillComplete o => exact atHead_agesBounded (fillRead_agesBounded o h) h
  | loadTimeout o => exact atHead_agesBounded (loadExpiry_agesBounded o h) h
  | fillTimeout o => exact atHead_agesBounded (ite_agesBounded (expiryCause_agesBounded o _ h) h) h
  | rampTimeout o => exact atHead_agesBounded (ite_agesBounded (expiryCause_agesBounded o _ h) h) h
  | holdTimerExpiry o => exact atHead_agesBounded (ite_agesBounded (openTick_agesBounded o h) h) h
  | drainTimerExpiry o =>
    exact atHead_agesBounded (ite_agesBounded (enterDone_agesBounded (openTick_agesBounded o h)) h) h
  | urgentFlagSet o => exact atHead_agesBounded (ite_agesBounded (openTick_agesBounded o h) h) h
  | unloadComplete o => exact atHead_agesBounded (unloadRead_agesBounded o h) h
  | unloadTimeout o =>
    exact atHead_agesBounded (ite_agesBounded (enterOos_agesBounded _ (openTick_agesBounded o h)) h) h
  | clearEdge o => exact atHead_agesBounded (clearTaken_agesBounded o h) h
  | _ => exact absurd own Bool.false_ne_true

/-- Every command keeps the ages within their fields. -/
theorem exec_agesBounded (i : Instr) (h : AgesBounded s) : OutMeets AgesBounded (exec i s) := by
  cases i with
  | powerOnReset => exact outMeets_next (resetState_agesBounded _ s)
  | pinReset => exact outMeets_ite (fun _ => h) (resetState_agesBounded .pin s)
  | resetRelease a r high => exact outMeets_ite (fun _ => ite_agesBounded h h) h
  | profileReadComplete im seat infeedClear => exact execProfileReadComplete_agesBounded im seat infeedClear h
  | idleSpan cells => exact outMeets_ite (fun _ => h) h
  | callMade read => exact outMeets_ite (fun _ => enterRound_agesBounded read h) h
  | callJoined read => exact outMeets_ite (fun _ => enterRound_agesBounded read h) h
  | post read => exact execPost_agesBounded read h
  | incompleteRoundEnd => exact outMeets_ite (fun _ => h) h
  | contention read => exact outMeets_ite (fun _ => contend_agesBounded read h) h
  | messageSend read => exact execMessageSend_agesBounded read h
  | acceptFieldRead read => exact execAcceptFieldRead_agesBounded read h
  | messageDropped => exact outMeets_next (dropMessage_agesBounded h)
  | docketOffer f read => exact outMeets_next (receive_agesBounded _ f (fun _ hu => offerFor_agesBounded f read hu) h)
  | releaseCall f read => exact outMeets_next (receive_agesBounded _ f (fun _ hu => callFor_agesBounded f read hu) h)
  | docketDirect f read => exact outMeets_next (receive_agesBounded _ f (fun _ hu => directFor_agesBounded f read hu) h)
  | docketReturn f read => exact outMeets_next (receive_agesBounded _ f (fun _ hu => returnFor_agesBounded f read hu) h)
  | stationCard f => exact outMeets_next (receive_agesBounded _ f (fun _ hu => cardFor_agesBounded f hu) h)
  | verdictNote f => exact outMeets_next (receive_agesBounded _ f (fun _ hu => noteFor_agesBounded f hu) h)
  | roundEnd posts cell263 => exact execRoundEnd_agesBounded posts cell263 h
  | pacingExpiry => exact outMeets_next h
  | keepAliveExpiry => exact outMeets_next h
  | silenceExpiry o => exact outMeets_ite (fun _ => silenceExpiry_agesBounded o h) h
  | sampleTick pins x => exact execSampleTick_agesBounded pins x h
  | stopReported => exact execStopReported_agesBounded h
  | stopEnded => exact execStopEnded_agesBounded h
  | lampRepeat => exact outMeets_ite (fun _ => h) h
  | responseComplete | estop | psw | abort | lidOpen | seatActive | lidClosed | fillComplete | loadTimeout | fillTimeout
  | rampTimeout | holdTimerExpiry | drainTimerExpiry | urgentFlagSet | unloadComplete | unloadTimeout | clearEdge =>
    exact headEvent_agesBounded h _ rfl
  | infeedClear | readerLine | period | mass | find | close | cancel | clearEntry | unknownKeyword | docketJoin | pulseEnd
  | terminalReplySent => exact (intakeCommand_frame s _ rfl).mono fun _ => h.of_outsideIntake
  | markReaderLine | linkClear | linkLoad | linkQuery | linkStrike | strikeTimeout | punchDone | punchTimeout
  | punchPulseEnd | laneReleaseEnd | disposeClear | arrivalTimeout | callTimeout | recordLineSent =>
    exact (disposalCommand_frame s _ rfl).mono fun _ => h.of_outsideDsu

end

/-- Settles O9: an age is raised at a round's end alone, there to its maximum at most, so every command, and with it the
step, keeps the ages within their fields. -/
theorem agesStayBounded : Obligations.AgesStayBounded :=
  fun _ _ h ran => step_meets (fun _ _ hu => hu) (fun i _ hu => exec_agesBounded i hu) h ran

end Sys2Proof.Machine
end

section
/-! The line interface: the idle span, calls, the own post, incomplete rounds and the three line timers (file 02). -/

namespace Sys2Proof.Machine

/-! ### The idle span (R18) -/

theorem execIdleSpan_idle (cells : List LineRun) (s : State) (idle : s.lif.state = .idleWait) :
    execIdleSpan cells s = .next (readIdle cells s) := by
  simp [execIdleSpan, idle]

theorem execIdleSpan_other (cells : List LineRun) (s : State) (other : s.lif.state ≠ .idleWait) :
    execIdleSpan cells s = .next s := by
  simp [execIdleSpan, other]

/-- A count that has reached the idle span stays (R18). -/
theorem countRun_full (c : Nat) (r : LineRun) (full : 1024 ≤ c) : countRun c r = c := by
  simp [countRun, Config.idleSpan, full]

theorem countRun_released (c n : Nat) (below : c < 1024) : countRun c (.released n) = min 1024 (c + n) := by
  simp [countRun, Config.idleSpan, Nat.not_le.mpr below]

theorem countRun_low (c : Nat) (below : c < 1024) : countRun c .low = 0 := by
  simp [countRun, Config.idleSpan, Nat.not_le.mpr below]

theorem foldl_countRun_full (cells : List LineRun) (c : Nat) (full : 1024 ≤ c) : cells.foldl countRun c = c := by
  induction cells with
  | nil => rfl
  | cons r cells ih => rw [List.foldl_cons, countRun_full c r full, ih]

/-- The count after cells read in IDLE_WAIT, and the state it leads to. -/
theorem readIdle_eq (cells : List LineRun) (s : State) (c : Nat) (count : cells.foldl countRun s.lif.idleCount = c) :
    readIdle cells s =
      { s with lif := { s.lif with idleCount := c, state := if 1024 ≤ c then .callWait else .idleWait } } := by
  subst count
  rfl

/-- A span read in two parts is the span read whole (R18). -/
theorem execIdleSpan_append (xs ys : List LineRun) (s t : State) (first : execIdleSpan xs s = .next t) :
    execIdleSpan (xs ++ ys) s = execIdleSpan ys t := by
  by_cases idle : s.lif.state = .idleWait
  · rw [execIdleSpan_idle _ s idle] at first ⊢
    obtain rfl : readIdle xs s = t := by injection first
    generalize count : xs.foldl countRun s.lif.idleCount = c
    have whole : (xs ++ ys).foldl countRun s.lif.idleCount = ys.foldl countRun c := by rw [List.foldl_append, count]
    rw [readIdle_eq _ s _ whole, readIdle_eq xs s c count]
    by_cases full : 1024 ≤ c
    · rw [execIdleSpan_other _ _ (by simp [full]), foldl_countRun_full ys c full]
    · rw [execIdleSpan_idle _ _ (by simp [full]), readIdle_eq ys _ _ rfl]
  · rw [execIdleSpan_other _ s idle] at first ⊢
    obtain rfl : s = t := by injection first
    rw [execIdleSpan_other _ s idle]

/-- Settles O16, run by run; two parts of a span fold to the same count as the whole. -/
theorem idleSpanCounts : Obligations.IdleSpanCounts := by
  refine ⟨fun n s idle below => ?_, fun s idle below => ?_, execIdleSpan_append, execIdleSpan_other⟩
  · show execIdleSpan _ s = _
    rw [execIdleSpan_idle _ s idle, readIdle_eq [.released n] s _ (countRun_released _ n below)]
    simp
  · show execIdleSpan _ s = _
    rw [execIdleSpan_idle _ s idle, readIdle_eq [.low] s _ (countRun_low _ below), ← idle]
    simp

/-! ### Calls (R19, R23 to R25) -/

theorem enterRound_called (s : State) :
    enterRound 0 s = { s with lif := { s.lif with state := .inRound, round := {} } } := rfl

theorem pacingAtEnd_eq (m : LineMode) : pacingAtEnd m = match m with | .paced => .running | .quiet => .stopped := by
  cases m <;> rfl

/-- A part in a round that ends incomplete (R22, R24; log 20). -/
theorem endIncomplete_eq (s : State) :
    endIncomplete s = { s with lif := { s.lif with
      state := .idleWait, idleCount := 0, round := {}, rxBuffer := none
      pacing := match s.lif.mode with | .paced => .running | .quiet => .stopped } } := by
  rw [← pacingAtEnd_eq]
  rfl

theorem enterRound_failed (read : BitVec 4) (s : State) (low : read ≠ 0) : enterRound read s = endIncomplete s :=
  if_neg fun zero => low (eq_of_beq zero)

theorem execCallMade_eq (read : BitVec 4) (s : State) :
    execCallMade read s =
      if s.lif.state = .callWait ∧ s.reasonToCall = true then .next (enterRound read s) else .next s := by
  simp [execCallMade]

theorem execCallJoined_eq (read : BitVec 4) (s : State) :
    execCallJoined read s = if s.lif.state = .callWait then .next (enterRound read s) else .next s := by
  simp [execCallJoined]

/-- Two post words differ in a field other than an age field (R23). -/
theorem postChanged_iff (w v : PostWord) :
    postChanged w v = true ↔ postRole w ≠ postRole v ∨ postState w ≠ postState v ∨
      argNoAge (postRole w) (postState w) (postArg w) ≠ argNoAge (postRole v) (postState v) (postArg v) := by
  simp [postChanged, or_assoc]

/-- Before the first complete round and in ROLE_CONFLICT the keep-alive expiry is the one reason (R35, R38). -/
theorem reasonToCall_alone (s : State) (alone : s.lif.joined = false ∨ s.lif.roleConflict = true) :
    s.reasonToCall = true ↔ s.lif.keepAlive = .expired := by
  rcases alone with h | h <;> simp [State.reasonToCall, h]

theorem reasonToCall_paced (s : State) (joined : s.lif.joined = true) (free : s.lif.roleConflict = false)
    (paced : s.lif.mode = .paced) :
    s.reasonToCall = true ↔ s.lif.pacing = .expired ∨ s.lif.keepAlive = .expired := by
  simp [State.reasonToCall, joined, free, paced]

/-- The reasons in QUIET mode (R23, R25). -/
theorem reasonToCall_quiet (s : State) (joined : s.lif.joined = true) (free : s.lif.roleConflict = false)
    (quiet : s.lif.mode = .quiet) :
    s.reasonToCall = true ↔ s.lif.keepAlive = .expired ∨ s.txq ≠ [] ∨
      ∃ w v, s.postNow = some w ∧ (s.entry s.ownAddr).view = .intact v ∧ postChanged w v = true := by
  unfold State.reasonToCall
  simp only [joined, free, quiet]
  cases hw : s.postNow with
  | none => simp
  | some w => cases hv : (s.entry s.ownAddr).view <;> simp [or_assoc]

/-- Settles O17: the effect of a call by what its cells read, and the reasons by mode. -/
theorem callsAndTheirReasons : Obligations.CallsAndTheirReasons := by
  refine ⟨fun read s => ?_, fun s => ⟨reasonToCall_alone s, reasonToCall_paced s, fun joined free quiet => ?_⟩⟩
  · intro entered back
    have zero : read = 0 → enterRound read s = entered := by rintro rfl; exact enterRound_called s
    have low : read ≠ 0 → enterRound read s = back := fun h => (enterRound_failed read s h).trans (endIncomplete_eq s)
    show (_ → _ → execCallJoined read s = _) ∧ (_ → _ → execCallJoined read s = _) ∧
      (_ → _ → _ → execCallMade read s = _) ∧ (_ → _ → _ → execCallMade read s = _) ∧
      (_ → _ → execCallMade read s = _) ∧ (_ → execCallMade read s = _ ∧ execCallJoined read s = _)
    rw [execCallMade_eq, execCallJoined_eq]
    refine ⟨?_, ?_, ?_, ?_, ?_, ?_⟩
    · intro wait read0; rw [if_pos wait, zero read0]
    · intro wait cells; rw [if_pos wait, low cells]
    · intro wait reason read0; rw [if_pos ⟨wait, reason⟩, zero read0]
    · intro wait reason cells; rw [if_pos ⟨wait, reason⟩, low cells]
    · intro _ none'; rw [if_neg (by simp [none'])]
    · intro other; rw [if_neg (fun both => other both.1), if_neg other]; exact ⟨rfl, rfl⟩
  · rw [reasonToCall_quiet s joined free quiet]
    simp only [postChanged_iff]

/-! ### Incomplete rounds and the line timers (R22, R24 to R26) -/

theorem Timer.expire_eq (x : Timer) : x.expire = if x = .running then .expired else x := by
  cases x <;> rfl

/-- LINE_SILENCE is active in RAMPING alone, and cannot arise in SAFE (Table 9-1, R143). -/
theorem lineSilence_inactive (s : State) (out : s.tsq.state ≠ some .ramping) : s.condActive .lineSilence = false := by
  unfold State.condActive
  cases h : s.tsq.state with
  | none => rfl
  | some k =>
    cases k with
    | ramping => exact absurd h out
    | safe => cases s.tsq.safeFrom <;> rfl
    | _ => rfl

/-- The silence expiry out of RAMPING latches nothing, and what is in force goes on (R26, R143, R155). -/
theorem raise_lineSilence_out (s : State) (out : s.tsq.state ≠ some .ramping)
    (top : ∀ c ∈ s.ilk.latched, ∃ f, s.ilk.inForce = some f ∧ f.code ≤ c.code) : raise [.lineSilence] s = s := by
  have quiet : latchOne .lineSilence s = s := latchOne_not _ s (by simp [State.latches, lineSilence_inactive s out])
  show respond (latchOne .lineSilence s) = s
  rw [quiet, respond_stays s top]

theorem isHead_iff (s : State) : s.isHead = true ↔ s.role = some .test := by
  simp [State.isHead]

theorem execSilenceExpiry_stopped (o : TickOrder) (s : State) (other : s.lif.silence ≠ .running) :
    execSilenceExpiry o s = .next s := by
  simp [execSilenceExpiry, other]

/-- At INSPECT and DISPOSE the silence expiry raises the indication alone (R26). -/
theorem execSilenceExpiry_other (o : TickOrder) (s : State) (runs : s.lif.silence = .running)
    (other : s.role ≠ some .test) : execSilenceExpiry o s =
      .next { s with lif := { s.lif with silence := .expired, lineSilent := true } } := by
  have role : (s.withLif { s.lif with silence := .expired, lineSilent := true }).isHead = false := by
    rw [Bool.eq_false_iff, ne_eq, isHead_iff]
    exact other
  simp only [execSilenceExpiry, runs, beq_self_eq_true, if_true, silenceExpiry, role, Bool.false_eq_true, if_false]
  rfl

/-- At a head out of RAMPING it does no more than the reading of its tick (R26, R143; log 3). -/
theorem execSilenceExpiry_head (o : TickOrder) (s : State) (runs : s.lif.silence = .running)
    (head : s.role = some .test) (out : s.tsq.state ≠ some .ramping)
    (top : ∀ c ∈ s.ilk.latched, ∃ f, s.ilk.inForce = some f ∧ f.code ≤ c.code) :
    execSilenceExpiry o s =
      .next (openTick o { s with lif := { s.lif with silence := .expired, lineSilent := true } }) := by
  generalize told : { s with lif := { s.lif with silence := .expired, lineSilent := true } } = u
  have tsq : u.tsq = s.tsq := by rw [← told]
  have ilk : u.ilk = s.ilk := by rw [← told]
  have role : u.isHead = true := by rw [← told]; exact (isHead_iff s).mpr head
  obtain ⟨-, -, -, -, tick, arm, -⟩ := openTick_kept o u
  have quiet : raise [.lineSilence] (openTick o u) = openTick o u := by
    refine raise_lineSilence_out _ ?_ ?_
    · rw [tick, tsq]; exact out
    · rw [arm, ilk]; exact top
  have expired : silenceExpiry o s = if u.isHead then raise [.lineSilence] (openTick o u) else u := by
    rw [← told]; rfl
  rw [← quiet, execSilenceExpiry, runs, expired, role]
  rfl

/-- Settles O22: an incomplete round ends as a call that fails does, a timer expires when it runs, and LINE_SILENCE is no
active condition out of RAMPING. -/
theorem incompleteRoundsAndLineTimers : Obligations.IncompleteRoundsAndLineTimers := by
  refine ⟨fun s round posted stage => ?_, fun s => ⟨?_, ?_, ?_, ?_, fun o => execSilenceExpiry_stopped o s,
    fun o => execSilenceExpiry_other o s, fun o => execSilenceExpiry_head o s⟩⟩
  · have due : s.beforeWindow = true := by simp [State.beforeWindow, round, posted, stage]
    show execIncompleteRoundEnd s = _
    rw [execIncompleteRoundEnd, if_pos due]
    exact congrArg Host.Outcome.next (endIncomplete_eq s)
  all_goals
    intro runs
    simp [exec, execPacingExpiry, execKeepAliveExpiry, Timer.expire_eq, runs, State.withLif]

end Sys2Proof.Machine
end

section
/-! The own post, and ADDRESS_CONFLICT (R20, R37): what a station posts in each state, and that a conflict stands until a
reset. -/

namespace Sys2Proof.Machine

/-! ### The post word of the state (R28, R158, Table 2-6) -/

/-- The word a head posts, by its state (Table 2-6). -/
theorem postNow_head (s : State) (h : HeadState) (role : s.role = some .test) (at' : s.tsq.state = some h) :
    s.postNow = some (makePost .test h.code (headArg s h)) := by
  simp [State.postNow, role, at']

theorem postNow_inspect (s : State) (role : s.role = some .inspect) : s.postNow =
    some (makePost .inspect (if s.lif.roleConflict then 0 else s.ieu.state.code) s.ieu.infeed.length) := by
  simp [State.postNow, role]

theorem postNow_dispose (s : State) (role : s.role = some .dispose) :
    s.postNow = some (makePost .dispose (disposeState s).code s.dsu.arrival.length) := by
  simp [State.postNow, role]

/-- The code DISPOSE posts: the first condition that stands (R158). -/
theorem disposeState_code (s : State) : (disposeState s).code =
    if s.lif.roleConflict then 0
    else if s.dsu.stopCopy then 6
    else if s.dsu.halt.isSome then 5
    else if 4 ≤ s.dsu.recBuffer.length then 4
    else if 6 - s.dsu.arrival.length - (if s.dsu.call.isSome then 1 else 0) = 0 then 3
    else if s.dsu.call.isSome then 2 else 1 := by
  have free : (s.dsu.free == 0) = decide (6 - s.dsu.arrival.length - (if s.dsu.call.isSome then 1 else 0) = 0) := rfl
  unfold disposeState
  rw [free]
  simp only [apply_ite DisposeState.code, decide_eq_true_eq, Config.recordCap]
  rfl

/-- Settles O21, role by role and state by state. -/
theorem postWordOfTheState : Obligations.PostWordOfTheState := by
  refine ⟨fun s h role at' => ?_, fun s role => ⟨fun conflict => ?_, fun u n free at' listed => ?_⟩, fun s role => ?_, ?_⟩
  · rw [postNow_head s h role at']
    refine ⟨?_, ?_, ?_, ?_, ?_, fun n listed => ?_⟩
    · rintro rfl; rfl
    · rintro rfl; rfl
    · rintro rfl; rfl
    · rintro c rfl force; simp [headArg, force, HeadState.code]
    · rintro c rfl cause; simp [headArg, cause, HeadState.code]
    · simp only [List.mem_cons, Prod.mk.injEq, List.not_mem_nil, or_false] at listed
      rcases listed with ⟨rfl, rfl⟩ | ⟨rfl, rfl⟩ | ⟨rfl, rfl⟩ | ⟨rfl, rfl⟩ | ⟨rfl, rfl⟩ | ⟨rfl, rfl⟩ | ⟨rfl, rfl⟩ |
        ⟨rfl, rfl⟩ | ⟨rfl, rfl⟩ <;> rfl
  · rw [postNow_inspect s role, conflict]; rfl
  · rw [postNow_inspect s role, free, at']
    simp only [List.mem_cons, Prod.mk.injEq, List.not_mem_nil, or_false] at listed
    rcases listed with ⟨rfl, rfl⟩ | ⟨rfl, rfl⟩ | ⟨rfl, rfl⟩ | ⟨rfl, rfl⟩ | ⟨rfl, rfl⟩ | ⟨rfl, rfl⟩ <;> rfl
  · rw [postNow_dispose s role, disposeState_code]
  · decide +kernel

/-! ### The own post read back (R20, R37) -/

/-- POST in a round whose post is still due (R20). -/
theorem execPost_due (read w : PostWord) (s : State) (round : s.lif.state = .inRound)
    (due : s.lif.round.posted = none) (now : s.postNow = some w) : execPost read s = .next (writePost w read s) := by
  simp [execPost, now, round, due]

/-! ### ADDRESS_CONFLICT stands until a reset (R37) -/

/-- The state of the interface, its table and its round counter, and the phase of the loader, are those of `s`. -/
def LineStands (s t : State) : Prop :=
  t.lif.state = s.lif.state ∧ t.pvt = s.pvt ∧ t.lif.roundCounter = s.lif.roundCounter ∧
    t.loader.phase = s.loader.phase

theorem LineStands.of_blocks {s t : State} (lif : t.lif = s.lif) (pvt : t.pvt = s.pvt) (loader : t.loader = s.loader) :
    LineStands s t :=
  ⟨by rw [lif], pvt, by rw [lif], by rw [loader]⟩

theorem LineStands.refl (s : State) : LineStands s s := .of_blocks rfl rfl rfl

theorem LineStands.trans {s t u : State} (h : LineStands s t) (g : LineStands t u) : LineStands s u :=
  ⟨g.1.trans h.1, g.2.1.trans h.2.1, g.2.2.1.trans h.2.2.1, g.2.2.2.trans h.2.2.2⟩

theorem LineStands.of_outsideHead {s t : State} (same : t.outsideHead = s.outsideHead) : LineStands s t :=
  .of_blocks (congrArg State.lif same :) (congrArg State.pvt same :) (congrArg State.loader same :)

theorem LineStands.of_outsideIntake {s t : State} (same : t.outsideIntake = s.outsideIntake) : LineStands s t :=
  .of_blocks (congrArg State.lif same :) (congrArg State.pvt same :) (congrArg State.loader same :)

theorem LineStands.of_outsideDsu {s t : State} (same : t.outsideDsu = s.outsideDsu) : LineStands s t :=
  .of_blocks (congrArg State.lif same :) (congrArg State.pvt same :) (congrArg State.loader same :)

theorem dropMessage_lineStands (s : State) : LineStands s (dropMessage s) :=
  .of_blocks (dropMessage_lif s) (dropMessage_pvt s) (dropMessage_loader s)

theorem silenceExpiry_lineStands (o : TickOrder) (s : State) : LineStands s (silenceExpiry o s) := by
  have told : LineStands s (s.withLif { s.lif with silence := .expired, lineSilent := true }) := ⟨rfl, rfl, rfl, rfl⟩
  unfold silenceExpiry
  dsimp only
  split
  · exact told.trans (.of_outsideHead (by rw [raise_outsideHead, openTick_outsideHead]))
  · exact told

theorem execSampleTick_lineStands (p : Pins) (x : Sample) (s : State) :
    OutMeets (LineStands s) (execSampleTick p x s) := by
  unfold execSampleTick
  split
  · exact outMeets_next (.of_outsideHead (headSample_outsideHead p x s))
  · exact outMeets_next (.of_blocks rfl rfl rfl)
  · exact outMeets_next (.of_blocks rfl rfl rfl)
  · exact outMeets_next (.refl s)

theorem execStopReported_lineStands (s : State) : OutMeets (LineStands s) (execStopReported s) := by
  have flagged : LineStands s ((s.withInputs { s.inputs with estop := true }).withIlk
      { s.ilk with stopFlag := true }) := .of_blocks rfl rfl rfl
  have acted (r : Role) : LineStands s (stopReported r s) := by
    unfold stopReported
    dsimp only
    split
    · exact flagged
    · cases r with
      | inspect => exact flagged.trans (.of_outsideIntake (intakeStop_outsideIntake _))
      | test => exact flagged
      | dispose => exact flagged.trans (.of_outsideDsu (disposeStop_outsideDsu _))
  unfold execStopReported
  split
  · exact outMeets_next (.refl s)
  · exact outMeets_ite (fun _ => .refl s) (acted _)
  · exact outMeets_next (.refl s)

theorem execStopEnded_lineStands (s : State) : OutMeets (LineStands s) (execStopEnded s) := by
  have cleared : LineStands s ((s.withInputs { s.inputs with estop := false }).withIlk
      { s.ilk with stopFlag := false }) := .of_blocks rfl rfl rfl
  have acted (r : Role) : LineStands s (stopEnded r s) := by
    unfold stopEnded
    dsimp only
    split
    · exact cleared
    · cases r with
      | inspect =>
        dsimp only
        split
        · exact cleared.trans (.of_outsideIntake (intakeResume_outsideIntake _))
        · exact cleared
      | test => exact cleared
      | dispose => exact cleared.trans (.of_outsideDsu (disposeResume_outsideDsu _))
  unfold execStopEnded
  split
  · exact outMeets_next (.refl s)
  · exact outMeets_ite (fun _ => acted _) (.refl s)
  · exact outMeets_next (.refl s)

/-- A command of the calls, of the round and of the message window, with the received frames. -/
def roundCommand : Instr → Bool
  | .idleSpan _ | .callMade _ | .callJoined _ | .post _ | .incompleteRoundEnd | .contention _ | .messageSend _
  | .acceptFieldRead _ | .docketOffer _ _ | .releaseCall _ _ | .docketDirect _ _ | .docketReturn _ _ | .stationCard _
  | .verdictNote _ | .roundEnd _ _ => true
  | _ => false

theorem receive_conflict (k : MsgKind) (f : Frame) (take : State → State) (s : State)
    (conflict : s.lif.state = .addressConflict) : receive k f take s = s := by
  simp [receive, State.canReceive, conflict]

/-- An interface in ADDRESS_CONFLICT takes no part in a round (R37). -/
theorem roundCommand_conflict (i : Instr) (s : State) (conflict : s.lif.state = .addressConflict)
    (own : roundCommand i = true) : exec i s = .next s := by
  cases i with
  | idleSpan cells => exact execIdleSpan_other cells s (by simp [conflict])
  | callMade read => exact (execCallMade_eq read s).trans (if_neg (by simp [conflict]))
  | callJoined read => exact (execCallJoined_eq read s).trans (if_neg (by simp [conflict]))
  | post read =>
    show execPost read s = _
    unfold execPost
    split <;> simp [conflict]
  | incompleteRoundEnd => simp [exec, execIncompleteRoundEnd, State.beforeWindow, conflict]
  | contention read => simp [exec, execContention, State.beforeWindow, conflict]
  | messageSend read =>
    show execMessageSend read s = _
    unfold execMessageSend
    split <;> simp [conflict]
  | acceptFieldRead read =>
    show execAcceptFieldRead read s = _
    unfold execAcceptFieldRead
    split <;> simp [conflict]
  | roundEnd posts cell263 =>
    show execRoundEnd posts cell263 s = _
    unfold execRoundEnd
    split <;> simp [State.roundDue, conflict]
  | docketOffer | releaseCall | docketDirect | docketReturn | stationCard | verdictNote =>
    exact congrArg Host.Outcome.next (receive_conflict _ _ _ s conflict)
  | _ => exact absurd own Bool.false_ne_true

/-- Only a reset moves a running station's interface out of ADDRESS_CONFLICT, its table or its round counter (R37). -/
theorem exec_conflict_stands (i : Instr) (s : State) (conflict : s.lif.state = .addressConflict)
    (runs : s.loader.phase = .running) (on : i ≠ .powerOnReset) (pin : i ≠ .pinReset) :
    OutMeets (LineStands s) (exec i s) := by
  cases i with
  | powerOnReset => exact absurd rfl on
  | pinReset => exact absurd rfl pin
  | resetRelease a r high => simp [exec, execResetRelease, runs, outMeets_next_iff, LineStands.refl]
  | profileReadComplete im seat infeedClear =>
    simp [exec, execProfileReadComplete, runs, outMeets_next_iff, LineStands.refl]
  | messageDropped => exact outMeets_next (dropMessage_lineStands s)
  | pacingExpiry => exact outMeets_next ⟨rfl, rfl, rfl, rfl⟩
  | keepAliveExpiry => exact outMeets_next ⟨rfl, rfl, rfl, rfl⟩
  | silenceExpiry o => exact outMeets_ite (fun _ => silenceExpiry_lineStands o s) (.refl s)
  | sampleTick pins x => exact execSampleTick_lineStands pins x s
  | stopReported => exact execStopReported_lineStands s
  | stopEnded => exact execStopEnded_lineStands s
  | lampRepeat => exact outMeets_ite (fun _ => .refl s) (.of_blocks rfl rfl rfl)
  | idleSpan | callMade | callJoined | post | incompleteRoundEnd | contention | messageSend | acceptFieldRead
  | docketOffer | releaseCall | docketDirect | docketReturn | stationCard | verdictNote | roundEnd =>
    rw [roundCommand_conflict _ s conflict rfl]
    exact outMeets_next (.refl s)
  | responseComplete | estop | psw | abort | lidOpen | seatActive | lidClosed | fillComplete | loadTimeout | fillTimeout
  | rampTimeout | holdTimerExpiry | drainTimerExpiry | urgentFlagSet | unloadComplete | unloadTimeout | clearEdge =>
    exact (headEvent_frame s _ rfl).mono fun _ => .of_outsideHead
  | infeedClear | readerLine | period | mass | find | close | cancel | clearEntry | unknownKeyword | docketJoin | pulseEnd
  | terminalReplySent => exact (intakeCommand_frame s _ rfl).mono fun _ => .of_outsideIntake
  | markReaderLine | linkClear | linkLoad | linkQuery | linkStrike | strikeTimeout | punchDone | punchTimeout
  | punchPulseEnd | laneReleaseEnd | disposeClear | arrivalTimeout | callTimeout | recordLineSent =>
    exact (disposalCommand_frame s _ rfl).mono fun _ => .of_outsideDsu

/-- Settles O18: the reading of the own post decides, and in ADDRESS_CONFLICT no command but a reset moves the line. -/
theorem ownPostAndAddressConflict : Obligations.OwnPostAndAddressConflict := by
  refine ⟨fun read w s round due now => ⟨fun same => ?_, fun other => ?_⟩, fun c s t conflict runs on pin ran => ?_⟩
  · exact (execPost_due read w s round due now).trans (congrArg _ (if_pos (beq_iff_eq.mpr same)))
  · exact (execPost_due read w s round due now).trans (congrArg _ (if_neg fun same => other (eq_of_beq same)))
  · obtain ⟨state, pvt, counter, phase⟩ := exec_conflict_stands c s conflict runs on pin t ran
    exact ⟨state.trans conflict, pvt, counter, phase.trans runs⟩

end Sys2Proof.Machine
end

section
/-! Post words: what is made reads back, and the check finds one misread cell (R27, R30). -/

namespace Sys2Proof.Machine

/-! ### The check of a word -/

/-- What the check of a post word finds: the CRC-3 of its first thirteen cells against its last three; 0 is none (R27). -/
def postSyndrome (w : PostWord) : BitVec 3 := crc3 (w.extractLsb' 3 13) ^^^ w.extractLsb' 0 3

theorem postSyndrome_zero_iff (w : PostWord) :
    postSyndrome w = 0 ↔ crc3 (w.extractLsb' 3 13) = w.extractLsb' 0 3 := BitVec.xor_eq_zero_iff

/-- A word reads intact exactly when its first cell is 0, its check finds nothing and its form is one of Table 2-6 (R30);
all cells at 1 is excluded by the first. -/
theorem classifyPost_intact_iff (w v : PostWord) : classifyPost w = .intact v ↔
    v = w ∧ w.getMsbD 0 = false ∧ postSyndrome w = 0 ∧ postFormOk w = true := by
  rw [postSyndrome_zero_iff]
  unfold classifyPost
  by_cases ones : w = BitVec.allOnes 16
  · have first : (BitVec.allOnes 16).getMsbD 0 ≠ false := by decide
    subst ones
    rw [if_pos (beq_self_eq_true _)]
    exact ⟨fun no => (nomatch no), fun good => absurd good.2.1 first⟩
  · simp only [beq_iff_eq, ones, if_false, Bool.and_eq_true, Bool.not_eq_true', and_assoc]
    split
    · rename_i good
      simp only [good, View.intact.injEq, and_true, eq_comm]
    · rename_i bad
      exact ⟨fun no => (nomatch no), fun good => absurd good.2 bad⟩

theorem classifyPost_unknown_iff (w : PostWord) : classifyPost w = .unknown ↔
    w ≠ BitVec.allOnes 16 ∧ ¬ (w.getMsbD 0 = false ∧ postSyndrome w = 0 ∧ postFormOk w = true) := by
  rw [postSyndrome_zero_iff]
  unfold classifyPost
  by_cases ones : w = BitVec.allOnes 16
  · simp [ones]
  · simp only [beq_iff_eq, ones, if_false, Bool.and_eq_true, Bool.not_eq_true', and_assoc]
    split <;> simp_all

/-! ### The check is linear, and finds one cell (R27) -/

theorem crc3Step_xor (x y : BitVec 3) (a b : Bool) : crc3Step (x ^^^ y) (a ^^ b) = crc3Step x a ^^^ crc3Step y b := by
  revert x y a b
  decide +kernel

/-- The check of a sum of two words is the sum of their checks: the register starts at 0 (R27). -/
theorem crc3_xor (x y : BitVec 13) : crc3 (x ^^^ y) = crc3 x ^^^ crc3 y := by
  have cells (l : List Nat) (p q : BitVec 3) : (l.map (x ^^^ y).getMsbD).foldl crc3Step (p ^^^ q) =
      (l.map x.getMsbD).foldl crc3Step p ^^^ (l.map y.getMsbD).foldl crc3Step q := by
    induction l generalizing p q with
    | nil => rfl
    | cons i l ih =>
      simp only [List.map_cons, List.foldl_cons]
      rw [BitVec.getMsbD_xor, crc3Step_xor, ih]
  exact cells (List.range 13) 0 0

theorem postSyndrome_xor (w e : PostWord) : postSyndrome (w ^^^ e) = postSyndrome w ^^^ postSyndrome e := by
  unfold postSyndrome
  rw [BitVec.extractLsb'_xor, BitVec.extractLsb'_xor, crc3_xor]
  ac_rfl

theorem postSyndrome_cell : ∀ i < 16, postSyndrome (1#16 <<< i) ≠ 0 := by decide +kernel

/-- Fifteen cells at 1 and one at 0 are no intact post: the role would be 11 or the first cell 1 (R30). -/
theorem nearly_ones_not_intact : ∀ i < 16, classifyPost (BitVec.allOnes 16 ^^^ (1#16 <<< i)) ≠
    .intact (BitVec.allOnes 16 ^^^ (1#16 <<< i)) := by decide +kernel

/-- Settles O20: the check is linear and no single cell checks, and an intact post is two cells away from all ones. -/
theorem singleMisreadIsUnknown : Obligations.SingleMisreadIsUnknown := by
  intro w i lt intact
  obtain ⟨-, -, checks, -⟩ := (classifyPost_intact_iff w w).mp intact
  refine (classifyPost_unknown_iff _).mpr ⟨fun ones => ?_, fun ⟨_, misread, _⟩ => ?_⟩
  · have near : w = BitVec.allOnes 16 ^^^ (1#16 <<< i) := by rw [← ones, BitVec.xor_assoc, BitVec.xor_self, BitVec.xor_zero]
    rw [near] at intact
    exact nearly_ones_not_intact i lt intact
  · rw [postSyndrome_xor, checks] at misread
    exact postSyndrome_cell i lt (BitVec.zero_xor.symm.trans misread)

/-! ### A word from its fields -/

theorem Role.ofCode_code (r : Role) : Role.ofCode r.code = some r := by cases r <;> rfl

section
variable (r : Role) (state arg : Nat)

/-- The thirteen cells of a post word ahead of its check (Table 2-5). -/
def postCells : BitVec 13 := 0#1 ++ r.code ++ BitVec.ofNat 4 state ++ BitVec.ofNat 6 arg

theorem makePost_eq : makePost r state arg = postCells r state arg ++ crc3 (postCells r state arg) := rfl

/-- The cells of a made word above its check. -/
theorem makePost_extract (start len : Nat) (above : 3 ≤ start) : (makePost r state arg).extractLsb' start len =
    (postCells r state arg).extractLsb' (start - 3) len :=
  BitVec.extractLsb'_append_eq_of_le above

theorem makePost_first : (makePost r state arg).getMsbD 0 = false := by
  have field : (postCells r state arg).extractLsb' (15 - 3) 1 = 0#1 := by
    refine (BitVec.extractLsb'_append_eq_of_le (by omega)).trans ?_
    refine (BitVec.extractLsb'_append_eq_of_le (by omega)).trans ?_
    exact BitVec.extractLsb'_append_eq_left
  have cell : (makePost r state arg).getMsbD 0 = ((makePost r state arg).extractLsb' 15 1).getLsbD 0 := by
    simp [BitVec.getMsbD_eq_getLsbD]
  rw [cell, makePost_extract r state arg 15 1 (by omega), field]
  rfl

theorem makePost_checks : postSyndrome (makePost r state arg) = 0 := by
  rw [postSyndrome_zero_iff, makePost_eq]
  exact (congrArg crc3 BitVec.extractLsb'_append_eq_left).trans BitVec.extractLsb'_append_eq_right.symm

theorem postRole_makePost : postRole (makePost r state arg) = some r := by
  rw [postRole, makePost_extract r state arg 13 2 (by omega)]
  have field : (postCells r state arg).extractLsb' (13 - 3) 2 = r.code := by
    refine (BitVec.extractLsb'_append_eq_of_le (by omega)).trans ?_
    refine (BitVec.extractLsb'_append_eq_of_le (by omega)).trans ?_
    exact BitVec.extractLsb'_append_eq_right
  rw [field, Role.ofCode_code]

theorem postState_makePost (small : state < 16) : postState (makePost r state arg) = state := by
  rw [postState, makePost_extract r state arg 9 4 (by omega)]
  have field : (postCells r state arg).extractLsb' (9 - 3) 4 = BitVec.ofNat 4 state := by
    refine (BitVec.extractLsb'_append_eq_of_le (by omega)).trans ?_
    exact BitVec.extractLsb'_append_eq_right
  rw [field, BitVec.toNat_ofNat, Nat.mod_eq_of_lt small]

theorem postArg_makePost (small : arg < 64) : postArg (makePost r state arg) = arg := by
  rw [postArg, makePost_extract r state arg 3 6 (by omega)]
  have field : (postCells r state arg).extractLsb' (3 - 3) 6 = BitVec.ofNat 6 arg := BitVec.extractLsb'_append_eq_right
  rw [field, BitVec.toNat_ofNat, Nat.mod_eq_of_lt small]

end

/-- A word made of a role, a state code and an argument of Table 2-6 reads intact, with its fields as written. -/
theorem makePost_reads_back (r : Role) (state arg : Nat) (code : state < 16) (field : arg < 64)
    (good : argumentOk r state arg = true) :
    classifyPost (makePost r state arg) = .intact (makePost r state arg) ∧ postRole (makePost r state arg) = some r ∧
      postState (makePost r state arg) = state ∧ postArg (makePost r state arg) = arg := by
  have form : postFormOk (makePost r state arg) = true := by
    simp [postFormOk, postRole_makePost, postState_makePost r state arg code, postArg_makePost r state arg field, good]
  exact ⟨(classifyPost_intact_iff _ _).mpr ⟨rfl, makePost_first r state arg, makePost_checks r state arg, form⟩,
    postRole_makePost r state arg, postState_makePost r state arg code, postArg_makePost r state arg field⟩

end Sys2Proof.Machine
end

section
/-! ROUND_END, stage by stage (R18, R21, R24 to R26, R32 to R36, R38): what the stages of a round's end leave alone, what
they make of the interface, the table and the units, and the two statements about it. -/

namespace Sys2Proof.Machine

/-! ### What a round's end leaves alone -/

/-- A state with the blocks blanked that a round's end may change. -/
def State.outsideRound (s : State) : State :=
  { s with lif := {}, txq := [], pvt := [], tsq := {}, msu := {}, adm := {}, ieu := {}, dsu := {} }

/-- A state that agrees outside those blocks is the other with those blocks. -/
theorem eq_of_outsideRound {s t : State} (same : t.outsideRound = s.outsideRound) :
    t = { s with
      lif := t.lif, txq := t.txq, pvt := t.pvt, tsq := t.tsq, msu := t.msu, adm := t.adm, ieu := t.ieu, dsu := t.dsu } :=
  (congrArg (fun u : State => { u with
    lif := t.lif, txq := t.txq, pvt := t.pvt, tsq := t.tsq, msu := t.msu, adm := t.adm, ieu := t.ieu, dsu := t.dsu })
    same :)

/-- The decisions of INSPECT change the transmit queue and the intake unit (R51, R73, R74). -/
theorem offerDecision_frame (s : State) : ∃ q u, offerDecision s = { s with txq := q, ieu := u } := by
  unfold offerDecision queueMsg
  (repeat' split) <;> exact ⟨_, _, rfl⟩

theorem directDecision_frame (s : State) : ∃ q, directDecision s = { s with txq := q } := by
  unfold directDecision queueMsg
  (repeat' split) <;> exact ⟨_, rfl⟩

/-- A produced record line changes the transmit queue, by its note, and the disposal unit (R176, R178). -/
theorem produceLine_frame (w : Waiter) (s : State) : ∃ q u, produceLine w s = { s with txq := q, dsu := u } := by
  unfold produceLine enterBuffer finishLine queueNote queueMsg
  (repeat' split) <;> exact ⟨_, _, rfl⟩

theorem cardRecord_frame (s : State) : ∃ q u, cardRecord s = { s with txq := q, dsu := u } := by
  unfold cardRecord
  split
  · split
    · exact produceLine_frame _ s
    · exact ⟨_, _, rfl⟩
  · exact ⟨_, _, rfl⟩

theorem callDecision_frame (s : State) : ∃ q u, callDecision s = { s with txq := q, dsu := u } := by
  unfold callDecision queueMsg
  (repeat' split) <;> exact ⟨_, _, rfl⟩

/-- The decision of a head changes its own blocks (R119, R120). -/
theorem admission_frame (s : State) : ∃ x m a, admission s = { s with tsq := x, msu := m, adm := a } := by
  unfold admission
  split
  · exact ⟨_, _, _, rfl⟩
  · exact ⟨_, _, _, rfl⟩

/-- The decisions of a role change the transmit queue and the role's unit, and nothing of the line. -/
theorem roleStep_frame (r : Role) (s : State) : ∃ q x m a u d,
    roleStep r s = { s with txq := q, tsq := x, msu := m, adm := a, ieu := u, dsu := d } := by
  unfold roleStep
  split
  · exact ⟨_, _, _, _, _, _, rfl⟩
  · cases r with
    | inspect =>
      obtain ⟨q, u, offered⟩ := offerDecision_frame s
      obtain ⟨p, sent⟩ := directDecision_frame (offerDecision s)
      exact ⟨p, _, _, _, u, _, by dsimp only; rw [sent, offered]⟩
    | test =>
      obtain ⟨x, m, a, admitted⟩ := admission_frame s
      exact ⟨_, x, m, a, _, _, admitted⟩
    | dispose =>
      obtain ⟨q, u, recorded⟩ := cardRecord_frame s
      obtain ⟨p, v, called⟩ := callDecision_frame (cardRecord s)
      exact ⟨p, _, _, _, _, v, by dsimp only; rw [called, recorded]⟩

/-! ### The stages -/

/-- The state of a round's end once a due drop is made, the round counted, the table updated, and mode and timers set (R21,
R24 to R26, R32). -/
def roundTabled (w : PostWord) (posts : List PostWord) (cell263 : Bool) (s : State) : State :=
  lineStep cell263 (updateTable posts w
    ((dropMessage s).withLif { (dropMessage s).lif with roundCounter := (dropMessage s).lif.roundCounter + 1 }))

/-- The state once the station's card is dealt with as well (R33, R36). -/
def roundCarded (r : Role) (w : PostWord) (posts : List PostWord) (cell263 : Bool) (s : State) : State :=
  cardStep r s.pvt (roundTabled w posts cell263 s)

/-- The state ahead of the decisions of the role. -/
def roundCounted (r : Role) (w : PostWord) (posts : List PostWord) (cell263 : Bool) (s : State) : State :=
  staleStep (refreshShare (ageStep (waitStep (conflictStep r (roundCarded r w posts cell263 s)))))

theorem completeRound_eq (r : Role) (w : PostWord) (posts : List PostWord) (cell263 : Bool) (s : State) :
    completeRound r w posts cell263 s = endRound (roleStep r (roundCounted r w posts cell263 s)) := rfl

section
variable (s : State)

/-- A wait count, an age, the share: the later stages ahead of the decisions keep the table and what is not counted. -/
theorem ageStep_frame : ∃ x a, ageStep s = { s with tsq := x, adm := a } := by
  unfold ageStep
  split <;> exact ⟨_, _, rfl⟩

theorem refreshShare_frame : ∃ a, refreshShare s = { s with adm := a } := by
  unfold refreshShare
  split
  · exact ⟨_, rfl⟩
  · exact ⟨_, rfl⟩

theorem endRound_frame : ∃ l, endRound s = { s with lif := l } := by
  rw [endRound_eq]
  split
  · exact ⟨_, rfl⟩
  · exact ⟨_, rfl⟩

theorem conflictStep_frame (r : Role) : ∃ l q u d, conflictStep r s = { s with lif := l, txq := q, ieu := u, dsu := d } := by
  unfold conflictStep
  split
  · cases r <;> exact ⟨_, _, _, _, rfl⟩
  · exact ⟨_, _, _, _, rfl⟩

end

/-! ### The interface and the table -/

section
variable (r : Role) (w : PostWord) (posts : List PostWord) (cell263 : Bool) (s : State)

theorem roundTabled_lif : (roundTabled w posts cell263 s).lif = { s.lif with
    roundCounter := s.lif.roundCounter + 1
    mode := if cell263 then .quiet else .paced
    pacing := pacingAtEnd (if cell263 then .quiet else .paced)
    keepAlive := .running, silence := .running, lineSilent := false } := by
  simp only [roundTabled, lineStep, updateTable, State.withLif_lif, State.withPvt_lif, dropMessage_lif]

theorem roundCarded_lif : (roundCarded r w posts cell263 s).lif =
    { (roundTabled w posts cell263 s).lif with joined := true } := by
  obtain ⟨q, v, e⟩ := cardStep_frame r s.pvt (roundTabled w posts cell263 s)
  rw [roundCarded, e]

/-- ROLE_CONFLICT is entered when a twin is seen (R38). -/
theorem conflictStep_lif : (conflictStep r s).lif =
    { s.lif with roleConflict := s.lif.roleConflict || s.seesTwin r } := by
  unfold conflictStep
  by_cases twin : (s.seesTwin r && !s.lif.roleConflict) = true
  · have seen : s.seesTwin r = true := by simp_all
    rw [if_pos twin, seen, Bool.or_true]
    cases r <;> rfl
  · have same : (s.lif.roleConflict || s.seesTwin r) = s.lif.roleConflict := by
      cases h : s.lif.roleConflict <;> simp_all
    rw [if_neg twin, same]

/-- The stages between the role conflict check and the stale peer touch neither the interface nor the table. -/
theorem counted_frame : ∃ x a, refreshShare (ageStep (waitStep s)) =
    { s with txq := (waitStep s).txq, tsq := x, adm := a } := by
  obtain ⟨x, a, aged⟩ := ageStep_frame (waitStep s)
  obtain ⟨b, shared⟩ := refreshShare_frame (ageStep (waitStep s))
  exact ⟨x, b, by rw [shared, aged]; rfl⟩

theorem roundCounted_lif : (roundCounted r w posts cell263 s).lif = { s.lif with
    roundCounter := s.lif.roundCounter + 1
    mode := if cell263 then .quiet else .paced
    pacing := pacingAtEnd (if cell263 then .quiet else .paced)
    keepAlive := .running, silence := .running, lineSilent := false, joined := true
    roleConflict := s.lif.roleConflict || (roundCarded r w posts cell263 s).seesTwin r
    staleAddr := (roundCounted r w posts cell263 s).stalePeer } := by
  obtain ⟨x, a, counted⟩ := counted_frame (conflictStep r (roundCarded r w posts cell263 s))
  have lif : (roundCounted r w posts cell263 s).lif =
      { (refreshShare (ageStep (waitStep (conflictStep r (roundCarded r w posts cell263 s))))).lif with
        staleAddr := (roundCounted r w posts cell263 s).stalePeer } := rfl
  rw [lif, counted]
  dsimp only
  rw [conflictStep_lif, roundCarded_lif, roundTabled_lif]

theorem roundCounted_pvt : (roundCounted r w posts cell263 s).pvt = (roundCarded r w posts cell263 s).pvt := by
  obtain ⟨x, a, counted⟩ := counted_frame (conflictStep r (roundCarded r w posts cell263 s))
  obtain ⟨l, p, u, d, conflict⟩ := conflictStep_frame (roundCarded r w posts cell263 s) r
  show (refreshShare (ageStep (waitStep (conflictStep r (roundCarded r w posts cell263 s))))).pvt = _
  rw [counted, conflict]

theorem completeRound_pvt : (completeRound r w posts cell263 s).pvt = (roundCarded r w posts cell263 s).pvt := by
  obtain ⟨l, ended⟩ := endRound_frame (roleStep r (roundCounted r w posts cell263 s))
  obtain ⟨q, x, m, a, u, d, decided⟩ := roleStep_frame r (roundCounted r w posts cell263 s)
  rw [completeRound_eq, ended, decided]
  exact roundCounted_pvt r w posts cell263 s

theorem completeRound_entry (a : Addr) :
    (completeRound r w posts cell263 s).entry a = (roundCarded r w posts cell263 s).entry a := by
  unfold State.entry
  rw [completeRound_pvt]

theorem roleStep_lif : (roleStep r s).lif = s.lif := by
  obtain ⟨q, x, m, a, u, d, decided⟩ := roleStep_frame r s
  rw [decided]

theorem toIdleWait_lif : (toIdleWait s).lif =
    { s.lif with state := .idleWait, idleCount := 0, round := {}, rxBuffer := none } := rfl

/-- The interface after a round's end: back in IDLE_WAIT from the round, else where it is (R18). -/
theorem completeRound_lif : (completeRound r w posts cell263 s).lif =
    if s.lif.state = .inRound then
      { (roundCounted r w posts cell263 s).lif with state := .idleWait, idleCount := 0, round := {}, rxBuffer := none }
    else { (roundCounted r w posts cell263 s).lif with round := {}, rxBuffer := none } := by
  have state : (roundCounted r w posts cell263 s).lif.state = s.lif.state := by rw [roundCounted_lif]
  rw [completeRound_eq, endRound_eq, roleStep_lif, state]
  split
  · rw [toIdleWait_lif, roleStep_lif]
  · rfl

/-- The blocks that no stage of a round's end changes. -/
theorem completeRound_outsideRound : (completeRound r w posts cell263 s).outsideRound = s.outsideRound := by
  obtain ⟨l, ended⟩ := endRound_frame (roleStep r (roundCounted r w posts cell263 s))
  obtain ⟨q, x, m, a, u, d, decided⟩ := roleStep_frame r (roundCounted r w posts cell263 s)
  obtain ⟨x', a', counted⟩ := counted_frame (conflictStep r (roundCarded r w posts cell263 s))
  obtain ⟨l', p, u', d', conflict⟩ := conflictStep_frame (roundCarded r w posts cell263 s) r
  obtain ⟨p', v, carded⟩ := cardStep_frame r s.pvt (roundTabled w posts cell263 s)
  obtain ⟨q'', x'', u'', d'', dropped⟩ := dropMessage_frame s
  have decisions : (completeRound r w posts cell263 s).outsideRound =
      (roundCounted r w posts cell263 s).outsideRound := by rw [completeRound_eq, ended, decided]; rfl
  have counts : (roundCounted r w posts cell263 s).outsideRound =
      (refreshShare (ageStep (waitStep (conflictStep r (roundCarded r w posts cell263 s))))).outsideRound := rfl
  have table : (roundTabled w posts cell263 s).outsideRound = (dropMessage s).outsideRound := rfl
  rw [decisions, counts, counted, conflict, roundCarded, carded]
  refine table.trans ?_
  rw [dropped]
  rfl

/-! ### The entries of the table (R32, R33) -/

theorem roundTabled_entry (a : Addr) : (roundTabled w posts cell263 s).entry a =
    if a = s.ownAddr then { s.entry a with view := .intact w, lastIntact := s.lif.roundCounter + 1 }
    else updatePeer (posts.getD a.toNat (BitVec.allOnes 16)) (s.lif.roundCounter + 1)
      (s.lif.round.cardFrom == some a) (s.entry a) := by
  have tabled : (roundTabled w posts cell263 s).entry a = (updateTable posts w
      ((dropMessage s).withLif { (dropMessage s).lif with roundCounter := (dropMessage s).lif.roundCounter + 1 })).entry a :=
    rfl
  rw [tabled, dropMessage_lif, updateTable_entry]
  have own : ((dropMessage s).withLif { s.lif with roundCounter := s.lif.roundCounter + 1 }).ownAddr = s.ownAddr :=
    congrArg (·.straps.addr) (dropMessage_loader s)
  have entry : ((dropMessage s).withLif { s.lif with roundCounter := s.lif.roundCounter + 1 }).entry a = s.entry a :=
    congrArg (·.getD a.toNat {}) (dropMessage_pvt s)
  simp only [updatedEntry, own, entry, State.withLif_lif, beq_iff_eq]

/-- An entry written is the entry read, in a table of sixteen (Table 2-7). -/
theorem setEntry_entry (a b : Addr) (e : PvtEntry) (sixteen : s.pvt.length = 16) :
    (setEntry a e s).entry b = if b = a then e else s.entry b := by
  have place : a.toNat < s.pvt.length := by have := a.isLt; omega
  unfold setEntry State.entry
  by_cases same : b = a
  · subst same
    simp [place]
  · have other : a.toNat ≠ b.toNat := fun h => same (BitVec.eq_of_toNat_eq h.symm)
    simp [other, same]

theorem queueCard_entry (a : Addr) : (queueCard r s).entry a = s.entry a := by
  obtain ⟨q, e⟩ := queueCard_frame r s
  rw [e]
  rfl

/-- The card of a round's end stands in the own entry after the first complete round (R33). -/
theorem cardStep_entry (old : List PvtEntry) (a : Addr) (sixteen : s.pvt.length = 16) :
    (cardStep r old s).entry a =
      if s.lif.joined = false ∧ a = s.ownAddr then { s.entry a with card := some (ownCard r s) } else s.entry a := by
  unfold cardStep
  cases s.lif.joined with
  | false =>
    show (queueCard r _).entry a = _
    rw [queueCard_entry]
    refine (setEntry_entry s s.ownAddr a _ sixteen).trans ?_
    by_cases own : a = s.ownAddr <;> simp [own]
  | true =>
    simp only [Bool.not_true, Bool.false_eq_true, if_false, Bool.true_eq_false, false_and]
    split
    · exact queueCard_entry r s a
    · rfl

theorem ownCard_roundTabled : ownCard r (roundTabled w posts cell263 s) = ownCard r s := by
  obtain ⟨q, x, u, d, dropped⟩ := dropMessage_frame s
  show ownCard r (dropMessage s) = _
  rw [dropped]
  rfl

theorem completeRound_entry_eq (a : Addr) : (completeRound r w posts cell263 s).entry a =
    if s.lif.joined = false ∧ a = s.ownAddr then
      { (roundTabled w posts cell263 s).entry a with card := some (ownCard r s) }
    else (roundTabled w posts cell263 s).entry a := by
  have own : (roundTabled w posts cell263 s).ownAddr = s.ownAddr := by
    show (dropMessage s).ownAddr = _
    unfold State.ownAddr; rw [dropMessage_loader]
  rw [completeRound_entry, roundCarded, cardStep_entry r _ s.pvt a rfl, ownCard_roundTabled, own, roundTabled_lif]

/-- The own entry: the word posted, read in this round; its card is the station's own from the first round on (R33). -/
theorem completeRound_ownEntry : (completeRound r w posts cell263 s).entry s.ownAddr =
    { view := .intact w, lastIntact := s.lif.roundCounter + 1
      card := if s.lif.joined then (s.entry s.ownAddr).card else some (ownCard r s) } := by
  rw [completeRound_entry_eq, roundTabled_entry, if_pos rfl]
  cases s.lif.joined <;> simp

/-- The entry of a peer takes the reading of its post (R32). -/
theorem completeRound_peerEntry (a : Addr) (peer : a ≠ s.ownAddr) : (completeRound r w posts cell263 s).entry a =
    updatePeer (posts.getD a.toNat (BitVec.allOnes 16)) (s.lif.roundCounter + 1)
      (s.lif.round.cardFrom == some a) (s.entry a) := by
  rw [completeRound_entry_eq, if_neg (fun own => peer own.2), roundTabled_entry, if_neg peer]

end

theorem updatePeer_absent (now : BitVec 32) (fresh : Bool) (e : PvtEntry) :
    updatePeer (BitVec.allOnes 16) now fresh e = { e with view := .absent, card := none } := rfl

theorem updatePeer_unknown (x : PostWord) (now : BitVec 32) (fresh : Bool) (e : PvtEntry)
    (bad : classifyPost x = .unknown) : updatePeer x now fresh e = { e with view := .unknown } := by
  simp [updatePeer, bad]

/-- An intact post drops a card that came in the same round from another role (R32, R53). -/
theorem updatePeer_intact (x v : PostWord) (now : BitVec 32) (fresh : Bool) (e : PvtEntry)
    (good : classifyPost x = .intact v) :
    (updatePeer x now fresh e).view = .intact v ∧ (updatePeer x now fresh e).lastIntact = now ∧
    ((fresh = true ∧ ∃ c, e.card = some c ∧ postRole v ≠ some c.role) → (updatePeer x now fresh e).card = none) ∧
    (¬ (fresh = true ∧ ∃ c, e.card = some c ∧ postRole v ≠ some c.role) →
      (updatePeer x now fresh e).card = e.card) := by
  unfold updatePeer
  rw [good]
  refine ⟨rfl, rfl, ?_, fun kept => ?_⟩
  · rintro ⟨rfl, c, has, other⟩
    simp [has, other]
  · cases has : e.card with
    | none => simp
    | some c =>
      cases fresh with
      | false => simp
      | true =>
        have same : postRole v = some c.role := by
          by_contra other
          exact kept ⟨rfl, c, has, other⟩
        simp [same]

/-! ### ROLE_CONFLICT (R38) -/

theorem Ieu.refresh_frame (u : Ieu) : u.refresh = { u with state := u.refresh.state } := by
  unfold Ieu.refresh
  split
  · split <;> rfl
  · split <;> rfl
  · rfl

/-- The dockets stay where they are when a message is dropped: a direct one becomes the direct fault, a call ends (R48, R75,
R165). -/
theorem dropMessage_keepsDockets (s : State) :
    ((dropMessage s).ieu.work = s.ieu.work ∧ (dropMessage s).ieu.infeed = s.ieu.infeed ∧
      (dropMessage s).ieu.direct = s.ieu.direct) ∧
    (dropMessage s).dsu.work = s.dsu.work ∧ (dropMessage s).dsu.arrival = s.dsu.arrival ∧
    (dropMessage s).dsu.recBuffer = s.dsu.recBuffer ∧ (dropMessage s).dsu.recWaiters = s.dsu.recWaiters := by
  unfold dropMessage
  split
  · rename_i m _
    cases m.kind with
    | docketReturn =>
      simp only [droppedEffect]
      unfold returnDropped
      (repeat' split) <;> exact ⟨⟨rfl, rfl, rfl⟩, rfl, rfl, rfl, rfl⟩
    | docketDirect =>
      simp only [droppedEffect, directDropped, State.withIeu_ieu, State.withIeu_dsu]
      rw [Ieu.refresh_frame]
      exact ⟨⟨rfl, rfl, rfl⟩, rfl, rfl, rfl, rfl⟩
    | _ => exact ⟨⟨rfl, rfl, rfl⟩, rfl, rfl, rfl, rfl⟩
  · exact ⟨⟨rfl, rfl, rfl⟩, rfl, rfl, rfl, rfl⟩

/-- A twin is an intact post of the station's own singular role at another address (R38). -/
theorem seesTwin_iff (s : State) (r : Role) : s.seesTwin r = true ↔
    r ≠ .test ∧ ∃ a v, a ≠ s.ownAddr ∧ (s.entry a).view = .intact v ∧ postRole v = some r := by
  unfold State.seesTwin
  simp only [Bool.and_eq_true, bne_iff_ne, List.any_eq_true]
  refine and_congr_right fun _ => exists_congr fun a => ?_
  cases h : (s.entry a).view <;> simp [mem_allAddrs a]

/-- Entering ROLE_CONFLICT empties the queue and sets the outputs of the role at rest; the counts that follow in the round's
end add nothing (R38; logs 42, 44). -/
theorem roleConflict_counted (r : Role) (u : State) :
    (refreshShare (ageStep (waitStep (roleConflict r u)))).txq = [] ∧
    (refreshShare (ageStep (waitStep (roleConflict r u)))).ieu = (if r = .inspect then
      { u.ieu with stage := .idle, infeedCh := .idle, bypass := .idle, route := 0 } else u.ieu) ∧
    (refreshShare (ageStep (waitStep (roleConflict r u)))).dsu = (if r = .dispose then
      { u.dsu with lane := 0, punchPulse := false, punchTimer := .stopped, strike := .stopped } else u.dsu) := by
  obtain ⟨x, a, counted⟩ := counted_frame (roleConflict r u)
  rw [counted]
  cases r <;> exact ⟨rfl, rfl, rfl⟩

section
variable (r : Role) (w : PostWord) (posts : List PostWord) (cell263 : Bool) (s : State)

/-- In ROLE_CONFLICT no decision is made, and a round's end leaves what the counts left. -/
theorem completeRound_conflict (conflict : (roundCounted r w posts cell263 s).lif.roleConflict = true) :
    completeRound r w posts cell263 s = endRound (roundCounted r w posts cell263 s) := by
  rw [completeRound_eq]
  exact congrArg endRound (if_pos conflict)

/-- What entering ROLE_CONFLICT at a round's end leaves of the queue and of the units (R38; logs 42, 44). -/
theorem completeRound_entersConflict (free : s.lif.roleConflict = false)
    (conflict : (completeRound r w posts cell263 s).lif.roleConflict = true) :
    (completeRound r w posts cell263 s).txq = [] ∧
    (completeRound r w posts cell263 s).ieu = (if r = .inspect then
      { (dropMessage s).ieu with stage := .idle, infeedCh := .idle, bypass := .idle, route := 0 } else (dropMessage s).ieu) ∧
    (completeRound r w posts cell263 s).dsu = (if r = .dispose then
      { (dropMessage s).dsu with lane := 0, punchPulse := false, punchTimer := .stopped, strike := .stopped } else (dropMessage s).dsu) := by
  have entered : (roundCounted r w posts cell263 s).lif.roleConflict = true := by
    rw [completeRound_lif] at conflict
    split at conflict <;> exact conflict
  have twin : (roundCarded r w posts cell263 s).seesTwin r = true := by
    rw [roundCounted_lif] at entered
    simpa [free] using entered
  have open' : (roundCarded r w posts cell263 s).lif.roleConflict = false := by
    rw [roundCarded_lif, roundTabled_lif]
    exact free
  have step : conflictStep r (roundCarded r w posts cell263 s) = roleConflict r (roundCarded r w posts cell263 s) := by
    simp [conflictStep, twin, open']
  obtain ⟨q, v, carded⟩ := cardStep_frame r s.pvt (roundTabled w posts cell263 s)
  have ieu : (roundCarded r w posts cell263 s).ieu = (dropMessage s).ieu := by rw [roundCarded, carded]; rfl
  have dsu : (roundCarded r w posts cell263 s).dsu = (dropMessage s).dsu := by rw [roundCarded, carded]; rfl
  obtain ⟨l, ended⟩ := endRound_frame (roundCounted r w posts cell263 s)
  have counted := roleConflict_counted r (roundCarded r w posts cell263 s)
  rw [ieu, dsu, ← step] at counted
  rw [completeRound_conflict r w posts cell263 s entered, ended]
  exact counted

theorem completeRound_roleConflict : (completeRound r w posts cell263 s).lif.roleConflict = true ↔
    s.lif.roleConflict = true ∨ (r ≠ .test ∧ ∃ a v, a ≠ s.ownAddr ∧
      ((completeRound r w posts cell263 s).entry a).view = .intact v ∧ postRole v = some r) := by
  have own : (roundCarded r w posts cell263 s).ownAddr = s.ownAddr := by
    obtain ⟨q, v, carded⟩ := cardStep_frame r s.pvt (roundTabled w posts cell263 s)
    have loader : (roundCarded r w posts cell263 s).loader = s.loader := by
      rw [roundCarded, carded]
      exact dropMessage_loader s
    unfold State.ownAddr
    rw [loader]
  simp only [completeRound_entry, ← own, ← seesTwin_iff]
  have lif : (completeRound r w posts cell263 s).lif.roleConflict = (roundCounted r w posts cell263 s).lif.roleConflict := by
    rw [completeRound_lif]
    split <;> rfl
  rw [lif, roundCounted_lif]
  simp

/-- The stale peer is looked up in the updated table (R34). -/
theorem completeRound_staleAddr : (completeRound r w posts cell263 s).lif.staleAddr =
    (completeRound r w posts cell263 s).stalePeer := by
  have lif : (completeRound r w posts cell263 s).lif.staleAddr = (roundCounted r w posts cell263 s).lif.staleAddr ∧
      (completeRound r w posts cell263 s).lif.roundCounter = (roundCounted r w posts cell263 s).lif.roundCounter := by
    rw [completeRound_lif]
    split <;> exact ⟨rfl, rfl⟩
  have stale : (roundCounted r w posts cell263 s).lif.staleAddr = (roundCounted r w posts cell263 s).stalePeer := by
    rw [roundCounted_lif]
  unfold State.stalePeer State.entry at stale ⊢
  rw [lif.1, lif.2, completeRound_pvt, stale, roundCounted_pvt]

end

/-! ### When a round's end is due (R22, R40 to R42; logs 11, 23) -/

theorem roundDue_iff (s : State) : s.roundDue = true ↔
    (s.lif.state = .inRound ∧ s.sending = false) ∨ s.lif.state = .idleWait ∨ s.lif.state = .callWait := by
  have out (h : s.lif.state ≠ .inRound) : s.sending = false := by simp [State.sending, h]
  unfold State.roundDue
  cases h : s.lif.state <;> simp [h, out]

theorem execRoundEnd_none (posts : List PostWord) (cell263 : Bool) (s : State)
    (no : s.lif.round.posted = none ∨ s.roundDue = false) : execRoundEnd posts cell263 s = .next s := by
  unfold execRoundEnd
  rcases no with no | no
  · split
    · rename_i has; rw [no] at has; cases has
    · rfl
  · split
    · simp [no]
    · rfl

theorem execRoundEnd_due (posts : List PostWord) (cell263 : Bool) (r : Role) (w : PostWord) (s : State)
    (role : s.role = some r) (posted : s.lif.round.posted = some w) (due : s.roundDue = true) :
    execRoundEnd posts cell263 s = .next (completeRound r w posts cell263 s) := by
  simp [execRoundEnd, role, posted, due]

end Sys2Proof.Machine
end

section
/-! The two statements about ROUND_END: what every station's round end does (R18, R21, R24 to R26, R32 to R38), and what it
does at a head (R29, R36, R46 to R49, R114 to R116). -/

namespace Sys2Proof.Machine

section
variable (r : Role) (w : PostWord) (posts : List PostWord) (cell263 : Bool) (s : State)

/-- What every round's end sets anew (R18, R24 to R26, R32). -/
theorem completeRound_setsAnew :
    let t := completeRound r w posts cell263 s
    (t.lif.roundCounter = s.lif.roundCounter + 1 ∧ t.lif.round = {} ∧ t.lif.rxBuffer = none ∧
      t.lif.keepAlive = .running ∧ t.lif.silence = .running ∧ t.lif.lineSilent = false ∧ t.lif.joined = true) ∧
    (s.lif.state = .inRound → t.lif.state = .idleWait ∧ t.lif.idleCount = 0) ∧
    (s.lif.state ≠ .inRound → t.lif.state = s.lif.state ∧ t.lif.idleCount = s.lif.idleCount) ∧
    (cell263 = false → t.lif.mode = .paced ∧ t.lif.pacing = .running) ∧
    (cell263 = true → t.lif.mode = .quiet ∧ t.lif.pacing = .stopped) := by
  dsimp only
  rw [completeRound_lif, roundCounted_lif]
  generalize (roundCounted r w posts cell263 s).stalePeer = stale
  generalize (roundCarded r w posts cell263 s).seesTwin r = twin
  by_cases round : s.lif.state = .inRound <;> cases cell263 <;> simp [round, pacingAtEnd]

/-- The own entry and the entries of the peers in the words of R32 and R33. -/
theorem completeRound_ownReading :
    let e := (completeRound r w posts cell263 s).entry s.ownAddr
    e.view = .intact w ∧ e.lastIntact = s.lif.roundCounter + 1 ∧
    (s.lif.joined = true → e.card = (s.entry s.ownAddr).card) ∧ (s.lif.joined = false → e.card = some (ownCard r s)) := by
  dsimp only
  rw [completeRound_ownEntry]
  refine ⟨rfl, rfl, fun joined => ?_, fun first => ?_⟩
  · simp [joined]
  · simp [first]

theorem completeRound_peerReading (a : Addr) (peer : a ≠ s.ownAddr) :
    let x := posts.getD a.toNat (BitVec.allOnes 16)
    let e := s.entry a
    let new := (completeRound r w posts cell263 s).entry a
    (x = BitVec.allOnes 16 → new = { e with view := .absent, card := none }) ∧
    (classifyPost x = .unknown → new = { e with view := .unknown }) ∧
    (∀ v, classifyPost x = .intact v → new.view = .intact v ∧ new.lastIntact = s.lif.roundCounter + 1 ∧
      ((s.lif.round.cardFrom = some a ∧ ∃ c, e.card = some c ∧ postRole v ≠ some c.role) → new.card = none) ∧
      (¬ (s.lif.round.cardFrom = some a ∧ ∃ c, e.card = some c ∧ postRole v ≠ some c.role) → new.card = e.card)) := by
  dsimp only
  rw [completeRound_peerEntry r w posts cell263 s a peer]
  generalize posts.getD a.toNat (BitVec.allOnes 16) = x
  refine ⟨?_, fun bad => updatePeer_unknown x _ _ _ bad, fun v good => ?_⟩
  · rintro rfl
    exact updatePeer_absent _ _ _
  · simpa only [beq_iff_eq] using
      updatePeer_intact x v (s.lif.roundCounter + 1) (s.lif.round.cardFrom == some a) (s.entry a) good

/-- ROLE_CONFLICT entered at a round's end: the queue empty, the outputs at rest, the dockets where they are (R38). -/
theorem completeRound_outputsAtRest (free : s.lif.roleConflict = false)
    (conflict : (completeRound r w posts cell263 s).lif.roleConflict = true) :
    let t := completeRound r w posts cell263 s
    t.txq = [] ∧
    (r = .inspect → intakeReady t = false ∧ (∀ p, pulseActive t p = false) ∧ t.ieu.stage = .idle ∧
      t.ieu.infeedCh = .idle ∧ t.ieu.bypass = .idle ∧ t.ieu.route = 0) ∧
    (r = .dispose → t.dsu.lane = 0 ∧ laneRelease t = false ∧ markReady t = false ∧ t.dsu.punchPulse = false ∧
      t.dsu.punchTimer = .stopped ∧ t.dsu.strike = .stopped) ∧
    t.ieu.work = s.ieu.work ∧ t.ieu.infeed = s.ieu.infeed ∧ t.ieu.direct = s.ieu.direct ∧
    t.dsu.work = s.dsu.work ∧ t.dsu.arrival = s.dsu.arrival ∧ t.dsu.recBuffer = s.dsu.recBuffer ∧
    t.dsu.recWaiters = s.dsu.recWaiters := by
  obtain ⟨queue, ieu, dsu⟩ := completeRound_entersConflict r w posts cell263 s free conflict
  obtain ⟨⟨work, infeed, direct⟩, inWork, arrival, buffer, waiters⟩ := dropMessage_keepsDockets s
  dsimp only
  generalize completeRound r w posts cell263 s = t at conflict queue ieu dsu
  refine ⟨queue, ?_, ?_, ?_⟩
  · rintro rfl
    rw [if_pos rfl] at ieu
    simp [intakeReady, State.ieuActs, conflict, pulseActive, ieu]
  · rintro rfl
    rw [if_pos rfl] at dsu
    simp [laneRelease, markReady, State.dsuActs, conflict, dsu]
  · rw [ieu, dsu, ← work, ← infeed, ← direct, ← inWork, ← arrival, ← buffer, ← waiters]
    cases r <;> exact ⟨rfl, rfl, rfl, rfl, rfl, rfl, rfl⟩

end

/-- Settles O35, from what the stages of a round's end leave of the interface, the table and the units. -/
theorem roundEndUpdatesTheTable : Obligations.RoundEndUpdatesTheTable := by
  refine ⟨roundDue_iff, execRoundEnd_none, fun posts cell263 r w s role posted due => ?_⟩
  obtain ⟨anew, round, out, paced, quiet⟩ := completeRound_setsAnew r w posts cell263 s
  exact ⟨_, execRoundEnd_due posts cell263 r w s role posted due, anew, round, out, paced, quiet,
    completeRound_ownReading r w posts cell263 s, completeRound_peerReading r w posts cell263 s,
    completeRound_staleAddr r w posts cell263 s, completeRound_roleConflict r w posts cell263 s,
    completeRound_outputsAtRest r w posts cell263 s, eq_of_outsideRound (completeRound_outsideRound r w posts cell263 s)⟩

/-! ### At a head -/

theorem execMessageDropped_eq (s : State) : exec .messageDropped s = .next (dropMessage s) := rfl

section
variable (w : PostWord) (posts : List PostWord) (cell263 : Bool) (s : State)

theorem refreshShare_head (head : s.isHead = true) :
    refreshShare s = { s with adm := { s.adm with kEff := s.effectiveK, mismatch := s.lowKAddr } } := if_pos head

/-- The ages of the head's state (R29, R116). -/
theorem ageStep_idle (at' : s.tsq.state = some .idle) :
    ageStep s = { s with tsq := { s.tsq with idleAge := min 63 (s.tsq.idleAge + 1) } } := by
  simp [ageStep, at', State.withTsq]

theorem ageStep_done (at' : s.tsq.state = some .done) :
    ageStep s = { s with tsq := { s.tsq with doneAge := min 31 (s.tsq.doneAge + 1) } } := by
  simp [ageStep, at', State.withTsq]

theorem ageStep_other (other : s.tsq.state ∉ [some .idle, some .done, some .waitRamp]) : ageStep s = s := by
  simp only [List.mem_cons, List.not_mem_nil, or_false, not_or] at other
  obtain ⟨idle, done, wait⟩ := other
  unfold ageStep
  split
  · contradiction
  · contradiction
  · contradiction
  · rfl

/-- The sequencer's ages depend on the sequencer alone. -/
theorem ageStep_tsq_congr {s u : State} (same : u.tsq = s.tsq) : (ageStep u).tsq = (ageStep s).tsq := by
  unfold ageStep
  rw [same]
  split
  · rfl
  · rfl
  · exact same
  · exact same

/-- Out of WAIT_RAMP an age of the sequencer may advance, and nothing else. -/
theorem ageStep_notWaiting (out : s.tsq.state ≠ some .waitRamp) : ∃ x, ageStep s = { s with tsq := x } ∧ x.state = s.tsq.state := by
  unfold ageStep
  split
  · exact ⟨_, rfl, rfl⟩
  · exact ⟨_, rfl, rfl⟩
  · contradiction
  · exact ⟨_, rfl, rfl⟩

/-- Out of WAIT_RAMP a head decides nothing at a round's end (R119). -/
theorem roleStep_notWaiting (out : s.tsq.state ≠ some .waitRamp) : roleStep .test s = s := by
  have no : s.headIs .waitRamp = false := by simp [State.headIs, out]
  simp [roleStep, admission, no]

/-- The decision of a head leaves its share of the pumps and the mismatch address (R114, R115, R120). -/
theorem roleStep_share : (roleStep .test s).adm.kEff = s.adm.kEff ∧ (roleStep .test s).adm.mismatch = s.adm.mismatch := by
  unfold roleStep
  split
  · exact ⟨rfl, rfl⟩
  · show (admission s).adm.kEff = _ ∧ (admission s).adm.mismatch = _
    unfold admission
    split <;> exact ⟨rfl, rfl⟩

theorem roleStep_testFrame : ∃ x m a, roleStep .test s = { s with tsq := x, msu := m, adm := a } := by
  unfold roleStep
  split
  · exact ⟨_, _, _, rfl⟩
  · exact admission_frame s

/-- The state of a round's end at a head once the drop, the table, the card and the wait counts are done. -/
def headWaited : State := waitStep (roundCarded .test w posts cell263 s)

theorem roundCounted_test : roundCounted .test w posts cell263 s =
    staleStep (refreshShare (ageStep (headWaited w posts cell263 s))) := rfl

/-- The blocks of the units stand as the drop left them; the queue is what the card and the wait counts make of it. -/
theorem headWaited_frame :
    let u := headWaited w posts cell263 s
    u.loader = s.loader ∧ u.tsq = (dropMessage s).tsq ∧ u.msu = (dropMessage s).msu ∧ u.adm = (dropMessage s).adm ∧
    u.ieu = (dropMessage s).ieu ∧ u.dsu = (dropMessage s).dsu ∧ RoundEndQueue .test posts (dropMessage s) u.txq := by
  have queue := roundEnd_queue .test posts w cell263 (dropMessage s)
  rw [dropMessage_pvt] at queue
  obtain ⟨q, v, carded⟩ := cardStep_frame .test s.pvt (roundTabled w posts cell263 s)
  refine ⟨?_, ?_, ?_, ?_, ?_, ?_, queue⟩
  · show (cardStep .test s.pvt (roundTabled w posts cell263 s)).loader = _
    rw [carded]
    exact dropMessage_loader s
  all_goals
    unfold headWaited waitStep roundCarded
    rw [carded]
    rfl

variable (head : s.role = some .test)
include head

theorem headWaited_isHead : (headWaited w posts cell263 s).isHead = true := by
  obtain ⟨loader, -⟩ := headWaited_frame w posts cell263 s
  rw [isHead_iff]
  unfold State.role at head ⊢
  rw [loader]
  exact head

/-- What a round's end leaves at a head, whatever its state: the share is that of the updated table (R114, R115). -/
theorem completeRound_head :
    let t := completeRound .test w posts cell263 s
    let u := headWaited w posts cell263 s
    t.txq = u.txq ∧ t.adm.kEff = t.effectiveK ∧ t.adm.mismatch = t.lowKAddr ∧ t.ieu = u.ieu ∧ t.dsu = u.dsu := by
  dsimp only
  rw [completeRound_eq, roundCounted_test]
  have isHead := headWaited_isHead w posts cell263 s head
  generalize headWaited w posts cell263 s = u at isHead
  obtain ⟨x, a, aged⟩ := ageStep_frame u
  have shared := refreshShare_head (ageStep u) (by rw [aged]; exact isHead)
  obtain ⟨x', m, b, decided⟩ := roleStep_testFrame (staleStep (refreshShare (ageStep u)))
  obtain ⟨share, low⟩ := roleStep_share (staleStep (refreshShare (ageStep u)))
  obtain ⟨l, ended⟩ := endRound_frame (roleStep .test (staleStep (refreshShare (ageStep u))))
  rw [decided] at ended share low
  rw [decided, ended]
  refine ⟨?_, share.trans ?_, low.trans ?_, ?_, ?_⟩ <;> rw [shared, aged] <;> rfl

/-- Out of WAIT_RAMP a round's end advances an age of the sequencer and leaves the rest of the head (R29, R116). -/
theorem completeRound_headNotWaiting (out : (dropMessage s).tsq.state ≠ some .waitRamp) :
    let t := completeRound .test w posts cell263 s
    t.tsq = (ageStep (dropMessage s)).tsq ∧ t.msu = (dropMessage s).msu ∧ t.adm.waitAge = (dropMessage s).adm.waitAge ∧
      t.adm.urgent = (dropMessage s).adm.urgent := by
  dsimp only
  rw [completeRound_eq, roundCounted_test]
  have isHead := headWaited_isHead w posts cell263 s head
  obtain ⟨-, tsq, msu, adm, -⟩ := headWaited_frame w posts cell263 s
  have same := ageStep_tsq_congr tsq
  rw [← same, ← msu, ← adm]
  rw [← tsq] at out
  generalize headWaited w posts cell263 s = u at isHead out
  obtain ⟨x, aged, state⟩ := ageStep_notWaiting u out
  have shared := refreshShare_head (ageStep u) (by rw [aged]; exact isHead)
  have still : roleStep .test (staleStep (refreshShare (ageStep u))) = staleStep (refreshShare (ageStep u)) := by
    refine roleStep_notWaiting _ ?_
    rw [shared, aged]
    exact state ▸ out
  obtain ⟨l, ended⟩ := endRound_frame (staleStep (refreshShare (ageStep u)))
  rw [still, ended, shared, aged]
  exact ⟨rfl, rfl, rfl, rfl⟩

end

/-- Settles O36: the drop first, then the stages of a round's end, of which a head out of WAIT_RAMP sees its age alone. -/
theorem roundEndAdvancesCounts : Obligations.RoundEndAdvancesCounts := by
  intro posts cell263 w s role posted due
  obtain ⟨queue, share, low, ieu, dsu⟩ := completeRound_head w posts cell263 s role
  obtain ⟨-, -, -, -, sameIeu, sameDsu, waited⟩ := headWaited_frame w posts cell263 s
  have still := completeRound_headNotWaiting w posts cell263 s role
  refine ⟨_, _, execMessageDropped_eq s, execRoundEnd_due posts cell263 .test w s role posted due,
    queue ▸ waited, share, low, ieu.trans sameIeu, dsu.trans sameDsu, fun idle => ?_, fun done => ?_, fun other => ?_,
    fun out => (still out).2⟩
  · rw [(still (by simp [idle])).1, ageStep_idle _ idle]
  · rw [(still (by simp [done])).1, ageStep_done _ done]
  · rw [(still fun wait => other (by simp [wait])).1, ageStep_other _ other]

end Sys2Proof.Machine
end

section
/-! The readers of bodies, in two calculi: what a reader makes of bytes that were written (`Reads`), and what holds of
whatever a reader answers (`Answers`) (R15, R16, Table 1-8). -/

namespace Sys2Proof.Machine

section
variable {α β : Type}

/-! ### What is written is read -/

/-- The reader takes exactly these bytes from the front of any body, and answers `v`. -/
def Reads (r : Reader α) (bytes : List Byte) (v : α) : Prop := ∀ rest, r (bytes ++ rest) = some (v, rest)

theorem Reads.bind {r : Reader α} {f : α → Reader β} {bytes more : List Byte} {v : α} {x : β} (first : Reads r bytes v)
    (then' : Reads (f v) more x) : Reads (r >>= f) (bytes ++ more) x := by
  intro rest
  rw [List.append_assoc]
  show (r (bytes ++ (more ++ rest))).bind _ = _
  rw [first]
  exact then' rest

/-- A reader of one byte. -/
theorem Reads.cons {r : Reader α} {f : α → Reader β} {b : Byte} {more : List Byte} {v : α} {x : β} (first : Reads r [b] v)
    (then' : Reads (f v) more x) : Reads (r >>= f) (b :: more) x := first.bind then'

/-- A check takes no byte. -/
theorem Reads.check {f : Unit → Reader β} {b : Bool} {bytes : List Byte} {x : β} (holds : b = true)
    (then' : Reads (f ()) bytes x) : Reads (require b >>= f) bytes x := by
  subst holds
  exact Reads.bind (bytes := []) (fun rest => require_true rest) then'

/-- A value that must exist, and does. -/
theorem Reads.exists {f : α → Reader β} {o : Option α} {v : α} {bytes : List Byte} {x : β} (has : o = some v)
    (then' : Reads (f v) bytes x) : Reads (readSome o >>= f) bytes x := by
  subst has
  exact Reads.bind (bytes := []) (fun _ => rfl) then'

theorem Reads.done {v x : α} (same : v = x) : Reads (pure v) [] x := by
  subst same
  exact fun _ => rfl

/-- A field that stands at the end of the bytes. -/
theorem Reads.last {r : Reader α} {f : α → Reader β} {bytes : List Byte} {v : α} {x : β} (first : Reads r bytes v)
    (then' : Reads (f v) [] x) : Reads (r >>= f) bytes x := by
  rw [← List.append_nil bytes]
  exact first.bind then'

theorem Reads.none {present : Bool} {r : Reader α} (absent : present = false) : Reads (readIf present r) [] none := by
  subst absent
  exact fun _ => rfl

/-- A field that its flag says is present, exactly when it is. -/
theorem Reads.optional {present : Bool} {r : Reader α} {o : Option α} (write : α → List Byte) (flag : present = o.isSome)
    (each : ∀ v, o = some v → Reads r (write v) v) : Reads (readIf present r) (o.elim [] write) o := by
  subst flag
  cases o with
  | none => exact Reads.none rfl
  | some v => exact fun rest => readIf_present r v _ rest (each v rfl rest)

theorem readNat_reads (n v : Nat) (small : v < 256 ^ n) : Reads (readNat n) (beBytes n v) v :=
  fun rest => readNat_beBytes n v rest small

theorem readNat_readsByte (v : Nat) (small : v < 256) : Reads (readNat 1) [BitVec.ofNat 8 v] v :=
  fun rest => readNat_byte v rest small

theorem readIn_reads (n lo hi v : Nat) (small : v < 256 ^ n) (low : lo ≤ v) (high : v ≤ hi) :
    Reads (readIn n lo hi) (beBytes n v) v :=
  fun rest => readIn_beBytes n lo hi v rest small low high

theorem readIn_readsByte (lo hi v : Nat) (small : v < 256) (low : lo ≤ v) (high : v ≤ hi) :
    Reads (readIn 1 lo hi) [BitVec.ofNat 8 v] v :=
  fun rest => readIn_byte lo hi v rest small low high

/-! ### What a reader answers -/

/-- Whatever the reader answers meets `P`. -/
def Answers (r : Reader α) (P : α → Prop) : Prop := ∀ bytes v rest, r bytes = some (v, rest) → P v

theorem Answers.mono {r : Reader α} {P Q : α → Prop} (h : Answers r P) (imp : ∀ v, P v → Q v) : Answers r Q :=
  fun bytes v rest ran => imp v (h bytes v rest ran)

theorem Answers.bind {r : Reader α} {f : α → Reader β} {P : α → Prop} {Q : β → Prop} (first : Answers r P)
    (then' : ∀ v, P v → Answers (f v) Q) : Answers (r >>= f) Q := by
  intro bytes x rest ran
  obtain ⟨⟨v, mid⟩, ran1, ran2⟩ := Option.bind_eq_some_iff.mp ran
  exact then' v (first bytes v mid ran1) mid x rest ran2

theorem Answers.pure {v : α} {P : α → Prop} (h : P v) : Answers (pure v) P := by
  rintro bytes x rest ⟨⟩
  exact h

theorem require_answers (b : Bool) : Answers (require b) fun _ => b = true :=
  fun bytes _ rest ran => (require_some b bytes rest ran).1

theorem readSome_answers (o : Option α) : Answers (readSome o) fun v => o = some v := by
  intro bytes v rest ran
  cases o with
  | none => cases ran
  | some x => cases ran; rfl

theorem readNat_answers (n : Nat) : Answers (readNat n) fun v => v < 256 ^ n :=
  fun bytes v rest ran => (readNat_some n v bytes rest ran).2.2.2

theorem readIn_answers (n lo hi : Nat) : Answers (readIn n lo hi) fun v => lo ≤ v ∧ v ≤ hi :=
  (readNat_answers n).bind fun v _ => (require_answers _).bind fun _ ok => .pure (by simpa using ok)

/-- A field stands exactly when its flag says so. -/
theorem readIf_answers {r : Reader α} {P : α → Prop} (present : Bool) (h : Answers r P) :
    Answers (readIf present r) fun o => o.isSome = present ∧ ∀ v, o = some v → P v := by
  cases present with
  | false => exact .pure ⟨rfl, fun v no => nomatch no⟩
  | true => exact h.bind fun v hv => .pure ⟨rfl, fun x same => Option.some.inj same ▸ hv⟩

theorem readMany_answers {r : Reader α} {P : α → Prop} (n : Nat) (h : Answers r P) :
    Answers (readMany r n) fun l => l.length = n ∧ ∀ x ∈ l, P x := by
  induction n with
  | zero => exact .pure ⟨rfl, fun x no => nomatch no⟩
  | succ n ih =>
    refine h.bind fun x hx => ih.bind fun xs hxs => .pure ⟨by simp [hxs.1], fun y hy => ?_⟩
    rcases List.mem_cons.mp hy with rfl | hy
    · exact hx
    · exact hxs.2 y hy

theorem readCause_answers (lo hi : Nat) : Answers (readCause lo hi) fun c => lo ≤ c.code ∧ c.code ≤ hi :=
  (readIn_answers 1 lo hi).bind fun v range => (readSome_answers _).mono fun c named => by
    rw [Cause.code_ofCode v c named]
    exact range

end

end Sys2Proof.Machine
end

section
/-! The parts of a docket's body that are more than a number: signed numbers, identity characters and findings (Table 1-8).
Each is read as it was written, and a reader answers none but such. -/

namespace Sys2Proof.Machine

/-! ### Signed numbers (Table 1-8, orders 29 and 30) -/

theorem signed24_reads (n : Int) (low : -8388608 ≤ n) (high : n < 8388608) : Reads readSigned24 (signed24 n) n := by
  have small : (BitVec.ofInt 24 n).toNat < 256 ^ 3 := (BitVec.ofInt 24 n).isLt
  refine (readNat_reads 3 _ small).last (.done ?_)
  rw [BitVec.ofNat_toNat, BitVec.setWidth_eq, BitVec.toInt_ofInt]
  exact Int.bmod_eq_of_le (by omega) (by omega)

theorem readSigned24_answers : Answers readSigned24 fun n => -8388608 ≤ n ∧ n < 8388608 :=
  (readNat_answers 3).bind fun v _ => .pure ⟨BitVec.le_toInt (BitVec.ofNat 24 v), BitVec.toInt_lt (x := BitVec.ofNat 24 v)⟩

/-! ### Identity characters (Table 1-8, order 5) -/

/-- The number that the 6-bit codes of a text spell, first character most significant. -/
def codesNat (t : Text) : Nat := t.foldl (fun v c => v * 64 + charCode c) 0

theorem codesNat_append (t : Text) (c : Byte) : codesNat (t ++ [c]) = codesNat t * 64 + charCode c := by
  simp [codesNat, List.foldl_append]

theorem codesNat_lt (t : Text) (good : ∀ c ∈ t, charCode c ≤ 36) : codesNat t < 64 ^ t.length := by
  induction t using List.reverseRecOn with
  | nil => decide
  | append_singleton t c ih =>
    have front := ih fun d hd => good d (by simp [hd])
    have back := good c (by simp)
    rw [codesNat_append, List.length_append, List.length_singleton, Nat.pow_succ]
    omega

theorem unpackCodes_codesNat (t : Text) (good : ∀ c ∈ t, charCode c ≤ 36) :
    unpackCodes t.length (codesNat t) = t.map charCode := by
  induction t using List.reverseRecOn with
  | nil => rfl
  | append_singleton t c ih =>
    have front := ih fun d hd => good d (by simp [hd])
    have back := good c (by simp)
    have quotient : (codesNat t * 64 + charCode c) / 64 = codesNat t := by omega
    have remainder : (codesNat t * 64 + charCode c) % 64 = charCode c := by omega
    rw [codesNat_append, List.length_append, List.length_singleton, unpackCodes, quotient, remainder, front,
      List.map_append, List.map_singleton]

theorem unpackCodes_length (n v : Nat) : (unpackCodes n v).length = n := by
  induction n generalizing v with
  | zero => rfl
  | succ n ih => simp [unpackCodes, ih]

/-- The bits of the codes and the pad bits fill the bytes. -/
theorem packed_bits (n : Nat) : 6 * n + (8 * packedLength n - 6 * n) = 8 * packedLength n := by
  unfold packedLength
  omega

theorem charCode_le_of_upper (c : Byte) (h : UpperOrDigit c) : charCode c ≤ 35 := by
  unfold UpperOrDigit at h
  rcases h with h | h
  · have notDigit : ¬ c.toNat ≤ 0x39 := by omega
    simp [charCode, isDigit, isUpper, h, notDigit]
  · simp [charCode, isDigit, h]
    omega

theorem codeChar_serial : ∀ n ≤ 36, UpperOrDigit (codeChar n) ∨ codeChar n = 0x2D := by
  unfold UpperOrDigit
  decide

theorem codeChar_mfr : ∀ n ≤ 35, UpperOrDigit (codeChar n) := by
  unfold UpperOrDigit
  decide

/-- The characters of an identity, packed, are read as they were written. -/
theorem packChars_reads (mfr serial : Text) (three : mfr.length = 3) (isMfr : ∀ c ∈ mfr, UpperOrDigit c)
    (isSerial : ∀ c ∈ serial, UpperOrDigit c ∨ c = 0x2D) :
    Reads (readChars serial.length) (packChars (mfr ++ serial)) (mfr, serial) := by
  have length : (mfr ++ serial).length = 3 + serial.length := by rw [List.length_append, three]
  have written : ∀ c ∈ mfr ++ serial, UpperOrDigit c ∨ c = 0x2D := by
    intro c hc
    rcases List.mem_append.mp hc with hc | hc
    · exact .inl (isMfr c hc)
    · exact isSerial c hc
  have codes : ∀ c ∈ mfr ++ serial, charCode c ≤ 36 := fun c hc => charCode_le c (written c hc)
  have back : ∀ t : Text, (∀ c ∈ t, UpperOrDigit c ∨ c = 0x2D) → (t.map charCode).map codeChar = t := by
    intro t ht
    rw [List.map_map]
    exact (List.map_congr_left fun c hc => codeChar_charCode c (ht c hc)).trans (List.map_id t)
  have unpacked := unpackCodes_codesNat (mfr ++ serial) codes
  have below := codesNat_lt (mfr ++ serial) codes
  rw [length] at unpacked below
  have bytes : packChars (mfr ++ serial) = beBytes (packedLength (3 + serial.length))
      (codesNat (mfr ++ serial) * 2 ^ (8 * packedLength (3 + serial.length) - 6 * (3 + serial.length))) := by
    rw [← length]
    rfl
  have bits := packed_bits (3 + serial.length)
  rw [bytes]
  unfold readChars
  dsimp only
  generalize codesNat (mfr ++ serial) = v at unpacked below
  generalize 8 * packedLength (3 + serial.length) - 6 * (3 + serial.length) = pad at bits
  have small : v * 2 ^ pad < 256 ^ packedLength (3 + serial.length) := by
    have whole : 64 ^ (3 + serial.length) * 2 ^ pad = 256 ^ packedLength (3 + serial.length) := by
      rw [show 64 = 2 ^ 6 from rfl, show 256 = 2 ^ 8 from rfl, ← Nat.pow_mul, ← Nat.pow_mul, ← Nat.pow_add, bits]
    rw [← whole]
    exact Nat.mul_lt_mul_of_pos_right below (Nat.pow_pos (by omega))
  have quotient : v * 2 ^ pad / 2 ^ pad = v := Nat.mul_div_cancel _ (Nat.two_pow_pos pad)
  refine (readNat_reads _ _ small).last (.check ?_ (.check ?_ (.done ?_)))
  · simp
  · rw [quotient, unpacked, Bool.and_eq_true, List.all_eq_true, List.all_eq_true, ← List.map_take,
      List.take_left' three]
    refine ⟨fun n hn => ?_, fun n hn => ?_⟩
    · obtain ⟨c, hc, rfl⟩ := List.mem_map.mp hn
      exact decide_eq_true (codes c hc)
    · obtain ⟨c, hc, rfl⟩ := List.mem_map.mp hn
      exact decide_eq_true (charCode_le_of_upper c (isMfr c hc))
  · rw [quotient, unpacked, ← List.map_take, ← List.map_drop, List.take_left' three, List.drop_left' three,
      back mfr fun c hc => .inl (isMfr c hc), back serial isSerial]

/-- Identity characters that are read have the form of Table 1-1. -/
theorem readChars_answers (n : Nat) : Answers (readChars n) fun p =>
    (p.1.length = 3 ∧ ∀ c ∈ p.1, UpperOrDigit c) ∧ p.2.length = n ∧ ∀ c ∈ p.2, UpperOrDigit c ∨ c = 0x2D := by
  refine (readNat_answers _).bind fun v _ => (require_answers _).bind fun _ _ => (require_answers _).bind fun _ ok => .pure ?_
  generalize listed : unpackCodes (3 + n) _ = codes at ok ⊢
  have length : codes.length = 3 + n := by rw [← listed, unpackCodes_length]
  rw [Bool.and_eq_true, List.all_eq_true, List.all_eq_true] at ok
  refine ⟨⟨by simp [length], fun c hc => ?_⟩, by simp [length], fun c hc => ?_⟩
  · obtain ⟨k, hk, rfl⟩ := List.mem_map.mp hc
    exact codeChar_mfr k (of_decide_eq_true (ok.2 k hk))
  · obtain ⟨k, hk, rfl⟩ := List.mem_map.mp hc
    exact codeChar_serial k (of_decide_eq_true (ok.1 k (List.mem_of_mem_drop hk)))

/-! ### Findings (Table 1-8, order 18) -/

/-- A finding as a return carries it: its code alone (R15). -/
def Finding.codeOnly (f : Finding) : Finding := { f with severity := none }

theorem findingByte_reads (f : Finding) (has : f.severity.isSome = true) : Reads readFinding [findingByte f] f := by
  obtain ⟨low, high⟩ := f.code.code_le
  obtain ⟨v, severe⟩ := Option.isSome_iff_exists.mp has
  have byte : (if f.severity == some .condemn then 8 else 0) ≤ 8 := by split <;> omega
  have parts : (f.code.code * 16 + (if f.severity == some .condemn then 8 else 0)) % 8 = 0 ∧
      (f.code.code * 16 + (if f.severity == some .condemn then 8 else 0)) / 16 = f.code.code := by
    split <;> omega
  refine (readNat_readsByte _ (by omega)).last (.check ?_ (.exists (v := f.code) ?_ (.done ?_)))
  · rw [beq_iff_eq]
    exact parts.1
  · rw [parts.2, FindingCode.ofCode_code]
  · cases f with
    | mk code severity =>
      dsimp only at severe ⊢
      subst severe
      cases v <;> simp <;> omega

theorem readFinding_answers : Answers readFinding fun f => f.severity.isSome = true :=
  (readNat_answers 1).bind fun _ _ => (require_answers _).bind fun _ _ => (readSome_answers _).bind fun _ _ => .pure rfl

/-- The packed findings of a return, two codes a byte. -/
theorem packFindings_reads : ∀ l : List Finding, Reads (readPacked l.length) (packFindings l) (l.map Finding.codeOnly)
  | [] => .done rfl
  | [a] => by
    obtain ⟨low, high⟩ := a.code.code_le
    refine (readNat_readsByte (a.code.code * 16) (by omega)).last (.check ?_ (.exists (v := a.code) ?_ (.done rfl)))
    · rw [beq_iff_eq]; omega
    · rw [Nat.mul_div_cancel _ (by omega), FindingCode.ofCode_code]
  | a :: b :: rest => by
    obtain ⟨low, high⟩ := a.code.code_le
    obtain ⟨low', high'⟩ := b.code.code_le
    have quotient : (a.code.code * 16 + b.code.code) / 16 = a.code.code := by omega
    have remainder : (a.code.code * 16 + b.code.code) % 16 = b.code.code := by omega
    refine (readNat_readsByte (a.code.code * 16 + b.code.code) (by omega)).cons
      (.exists (v := a.code) ?_ (.exists (v := b.code) ?_ ((packFindings_reads rest).last (.done rfl))))
    · rw [quotient, FindingCode.ofCode_code]
    · rw [remainder, FindingCode.ofCode_code]

theorem readPacked_answers : ∀ n, Answers (readPacked n) fun l => l.length = n ∧ ∀ f ∈ l, f.severity = none
  | 0 => .pure ⟨rfl, fun f no => nomatch no⟩
  | 1 => (readNat_answers 1).bind fun _ _ => (require_answers _).bind fun _ _ => (readSome_answers _).bind fun _ _ =>
      .pure ⟨rfl, fun f hf => by rw [List.mem_singleton.mp hf]⟩
  | n + 2 => (readNat_answers 1).bind fun _ _ => (readSome_answers _).bind fun a _ => (readSome_answers _).bind fun b _ =>
      (readPacked_answers n).bind fun rest tail => .pure ⟨by simp [tail.1], fun f hf => by
        rcases List.mem_cons.mp hf with rfl | hf
        · rfl
        · rcases List.mem_cons.mp hf with rfl | hf
          · rfl
          · exact tail.2 f hf⟩

end Sys2Proof.Machine
end

section
/-! The test part of a return on the wire (Table 1-8, orders 21 to 31): it is read as it was written, and a reader answers
none but one that R8 to R10 allow. -/

namespace Sys2Proof.Machine

section
variable {α : Type}

/-- A value that a flag says is present and that takes no byte of its own. -/
theorem Reads.flagged {present : Bool} {r : Reader α} {o : Option α} (flag : present = o.isSome)
    (each : ∀ v, o = some v → Reads r [] v) : Reads (readIf present r) [] o := by
  have h := Reads.optional (fun _ => []) flag each
  cases o <;> exact h

/-- A reading that takes no byte. -/
theorem Reads.silent {β : Type} {r : Reader α} {f : α → Reader β} {v : α} {bytes : List Byte} {x : β}
    (first : Reads r [] v) (then' : Reads (f v) bytes x) : Reads (r >>= f) bytes x :=
  Reads.bind (bytes := []) first then'

theorem readSome_reads {o : Option α} {v : α} (has : o = some v) : Reads (readSome o) [] v := by
  subst has
  exact fun _ => rfl

theorem elim_length (o : Option α) (write : α → List Byte) (n : Nat) (each : ∀ v, (write v).length = n) :
    (o.elim [] write).length = bitIf o.isSome n := by
  cases o with
  | none => rfl
  | some v => exact each v

end

theorem bitIf_eq (b : Bool) (w : Nat) : bitIf b w = w * b.toNat := by
  cases b <;> simp [bitIf]

theorem beq_one_of_toNat {n : Nat} {b : Bool} (h : n = b.toNat) : (n == 1) = b := by
  subst h
  cases b <;> rfl

theorem Verdict.ofCode_code (v : Verdict) : Verdict.ofCode v.code = v := by cases v <;> rfl

theorem Verdict.code_lt (v : Verdict) : v.code < 4 := by cases v <;> decide

/-- The fields of the first byte of a test part read back. -/
theorem headByte_fields (a v : Nat) (empty cause : Bool) (ha : a < 16) (hv : v < 4) (b : Nat)
    (hb : a * 16 + bitIf empty 8 + v * 2 + bitIf cause 1 = b) :
    b < 256 ∧ b / 16 = a ∧ (b / 8 % 2 == 1) = empty ∧ b / 2 % 4 = v ∧ (b % 2 == 1) = cause := by
  rw [bitIf_eq, bitIf_eq] at hb
  have := empty.toNat_le
  have := cause.toNat_le
  exact ⟨by omega, by omega, beq_one_of_toNat (by omega), by omega, beq_one_of_toNat (by omega)⟩

/-- The fields of its third byte. -/
theorem stampByte_fields (zero start stop : Bool) (stage : Nat) (hs : stage ≤ 3) (b : Nat)
    (hb : bitIf zero 128 + bitIf start 64 + bitIf stop 32 + stage * 8 = b) :
    b < 256 ∧ b % 8 = 0 ∧ (b / 128 == 1) = zero ∧ (b / 64 % 2 == 1) = start ∧ (b / 32 % 2 == 1) = stop ∧
      b / 8 % 4 = stage := by
  rw [bitIf_eq, bitIf_eq, bitIf_eq] at hb
  have := zero.toNat_le
  have := start.toNat_le
  have := stop.toNat_le
  exact ⟨by omega, by omega, beq_one_of_toNat (by omega), beq_one_of_toNat (by omega), beq_one_of_toNat (by omega),
    by omega⟩

/-- The code of an optional cause; 0 when absent (Table 1-8). -/
def causeCode (o : Option Cause) : Nat := o.elim 0 Cause.code

/-- The stage of the arithmetic says which expansion fields stand (Table 1-8). -/
theorem stage_fields (x : TestPart) (ep : x.ep.isSome = true → x.et.isSome = true)
    (ratio : x.ratio.isSome = true → x.ep.isSome = true) :
    x.stage ≤ 3 ∧ decide (1 ≤ x.stage) = x.et.isSome ∧ decide (2 ≤ x.stage) = x.ep.isSome ∧
      (x.stage == 3) = x.ratio.isSome := by
  unfold TestPart.stage
  cases hr : x.ratio.isSome <;> cases hp : x.ep.isSome <;> cases he : x.et.isSome <;> simp_all

/-- The bytes of a test part, field by field. -/
theorem testBytes_eq (x : TestPart) (means : x.holdEnd.isSome = x.holdMean.isSome)
    (et : decide (1 ≤ x.stage) = x.et.isSome) (ep : decide (2 ≤ x.stage) = x.ep.isSome) :
    testBytes x =
      BitVec.ofNat 8 (x.head.toNat * 16 + bitIf x.noCylinder 8 + x.verdict.code * 2 + bitIf x.cause.isSome 1) ::
      BitVec.ofNat 8 (x.conditions.length * 64 + causeCode x.cause) ::
      BitVec.ofNat 8 (bitIf x.zeroStamp.isSome 128 + bitIf x.holdStart.isSome 64 + bitIf x.holdEnd.isSome 32 +
        x.stage * 8) ::
      (beBytes 2 x.peak ++ (x.zeroStamp.elim [] (beBytes 2) ++ (x.holdStart.elim [] (beBytes 2) ++
        (x.holdEnd.elim [] (beBytes 2) ++ (x.holdMean.elim [] (beBytes 2) ++ (x.et.elim [] signed24 ++
          (x.ep.elim [] signed24 ++ x.conditions.map fun c => BitVec.ofNat 8 c.code))))))) := by
  have stamp (o : Option Nat) : optional16 o = o.elim [] (beBytes 2) := by cases o <;> rfl
  have signed (o : Option Int) (n : Nat) (h : decide (n ≤ x.stage) = o.isSome) :
      (if n ≤ x.stage then signed24 (o.getD 0) else []) = o.elim [] signed24 := by
    cases o with
    | none => exact if_neg (of_decide_eq_false h)
    | some v => exact if_pos (of_decide_eq_true h)
  unfold testBytes
  rw [stamp, stamp, signed x.et 1 et, signed x.ep 2 ep]
  cases he : x.holdEnd <;> cases hm : x.holdMean <;> cases hc : x.cause <;> simp_all [causeCode]

theorem distinctCauses_iff (l : List Cause) : distinctCauses l = true ↔ l.Nodup := by
  induction l with
  | nil => simp [distinctCauses]
  | cons c l ih => simp [distinctCauses, ih]

/-- What R8 to R10 leave of the arithmetic, as the reader of a return checks and computes it from the stage (R16). -/
theorem TestPart.Sendable.arithmetic {sender : Addr} {x : TestPart} (h : x.Sendable sender) :
    (x.stage ≤ 3 ∧ decide (1 ≤ x.stage) = x.et.isSome ∧ decide (2 ≤ x.stage) = x.ep.isSome) ∧
      (x.stage == 0 || x.conditions.isEmpty) = true ∧
      (x.stage != 3 || (decide (0 < x.et.getD 0) && decide (0 ≤ x.ep.getD 0) &&
        decide (x.ep.getD 0 ≤ x.et.getD 0))) = true ∧
      (if (x.stage == 3) = true then some (x.et.getD 0 - x.ep.getD 0) else none) = x.ee ∧
      (if (x.stage == 3) = true then some ((x.ep.getD 0).natAbs * 10000 / (x.et.getD 0).natAbs) else none) = x.ratio := by
  obtain ⟨-, -, -, -, -, -, -, -, -, -, exclusive, epet, -, noRatio, figures⟩ := h
  have ratioEp : x.ratio.isSome = true → x.ep.isSome = true := fun has => by
    obtain ⟨q, hq⟩ := Option.isSome_iff_exists.mp has
    obtain ⟨e, p, -, hp, -⟩ := figures q hq
    rw [hp]
    rfl
  obtain ⟨stage3, et, ep, ratio⟩ := stage_fields x epet ratioEp
  have quiet : (x.stage == 0 || x.conditions.isEmpty) = true := by
    cases has : x.et.isSome with
    | false =>
      rw [has, decide_eq_false_iff_not] at et
      have zero : x.stage = 0 := by omega
      simp [zero]
    | true => simp [exclusive has]
  refine ⟨⟨stage3, et, ep⟩, quiet, ?_⟩
  cases has : x.ratio with
  | none =>
    rw [has] at ratio
    simp [bne, ratio, noRatio has]
  | some q =>
    obtain ⟨e, p, he, hp, pos, le, hq, hee⟩ := figures q has
    rw [has] at ratio
    simp [ratio, he, hp, hq, hee, pos, le]

/-- A test part that may be sent is read as it was written, but for the readings, which stay at the head (R15). -/
theorem testBytes_reads (sender : Addr) (x : TestPart) (h : x.Sendable sender) :
    Reads (readTest sender) (testBytes x) x.received := by
  obtain ⟨⟨stage3, et, ep⟩, quiet, whole, ee, ratio⟩ := h.arithmetic
  obtain ⟨head, peak, empty, caused, cause21, stamps, means, three, nodup, cond14, -, -, range, -, -⟩ := h
  have causeSmall : causeCode x.cause < 64 := by
    cases hc : x.cause with
    | none => decide
    | some c => have := cause21 c hc; exact Nat.lt_of_le_of_lt this (by decide)
  rw [testBytes_eq x means et ep]
  generalize hb1 : x.head.toNat * 16 + bitIf x.noCylinder 8 + x.verdict.code * 2 + bitIf x.cause.isSome 1 = b1
  generalize hb2 : x.conditions.length * 64 + causeCode x.cause = b2
  generalize hb3 : bitIf x.zeroStamp.isSome 128 + bitIf x.holdStart.isSome 64 + bitIf x.holdEnd.isSome 32 + x.stage * 8 = b3
  obtain ⟨small1, b1head, b1empty, b1verdict, b1cause⟩ := headByte_fields _ _ _ _ x.head.isLt x.verdict.code_lt b1 hb1
  obtain ⟨small3, b3pad, b3zero, b3start, b3stop, b3stage⟩ := stampByte_fields _ _ _ _ stage3 b3 hb3
  have b2count : b2 / 64 = x.conditions.length := by omega
  have b2cause : b2 % 64 = causeCode x.cause := by omega
  refine (readNat_readsByte b1 small1).cons ((readNat_readsByte b2 (by omega)).cons
    ((readNat_readsByte b3 small3).cons ?_))
  dsimp only
  rw [b1head, b1empty, b1verdict, b1cause, b2count, b2cause, b3pad, b3zero, b3start, b3stop, b3stage, et, ep,
    Verdict.ofCode_code]
  have stamp (o : Option Nat) (small : ∀ v, o = some v → v < 65536) :
      Reads (readIf o.isSome (readNat 2)) (o.elim [] (beBytes 2)) o :=
    Reads.optional _ rfl fun v hv => readNat_reads 2 v (small v hv)
  have signed (o : Option Int) (fits : ∀ v, o = some v → -8388608 ≤ v ∧ v < 8388608) :
      Reads (readIf o.isSome readSigned24) (o.elim [] signed24) o :=
    Reads.optional _ rfl fun v hv => signed24_reads v (fits v hv).1 (fits v hv).2
  have cause : Reads (readIf x.cause.isSome (do
        require (1 ≤ causeCode x.cause && causeCode x.cause ≤ 21)
        readSome (Cause.ofCode (causeCode x.cause)))) [] x.cause := by
    refine .flagged rfl fun c hc => ?_
    have code : causeCode x.cause = c.code := by rw [hc]; rfl
    have low : 1 ≤ c.code := by cases c <;> decide
    rw [code]
    exact .check (by simp [low, cause21 c hc]) (readSome_reads c.ofCode_code)
  have conditions : Reads (readMany (readCause 1 14) x.conditions.length)
      (x.conditions.map fun c => BitVec.ofNat 8 c.code) x.conditions :=
    fun rest => readMany_map _ _ _ rest fun c hc more => by
      have high := cond14 c hc
      exact readCause_byte 1 14 c more (by cases c <;> decide) high (by omega)
  have stopped : Reads (readIf x.holdEnd.isSome (readNat 2)) (x.holdMean.elim [] (beBytes 2)) x.holdMean := by
    rw [means]
    exact stamp _ fun v hv => stamps v (.inr (.inr (.inr hv)))
  refine Reads.check rfl (Reads.check ?_ (Reads.check ?_ (Reads.silent cause (Reads.check ?_ (Reads.check ?_ ?_)))))
  · rw [head, beq_iff_eq]
  · cases x.cause <;> rfl
  · rw [beq_iff_eq, Bool.eq_iff_iff, caused, bne_iff_ne]
  · rw [beq_iff_eq, Bool.eq_iff_iff, empty, beq_iff_eq]
  refine (readNat_reads 2 _ peak).bind ((stamp _ fun v hv => stamps v (.inl hv)).bind
    ((stamp _ fun v hv => stamps v (.inr (.inl hv))).bind ((stamp _ fun v hv => stamps v (.inr (.inr (.inl hv)))).bind
    (stopped.bind ((signed _ fun v hv => range v (.inl hv)).bind ((signed _ fun v hv => range v (.inr hv)).bind
    (conditions.last (Reads.check ?_ (Reads.check whole (Reads.done ?_))))))))))
  · rw [quiet, (distinctCauses_iff _).mpr nodup]
    rfl
  · rw [ee, ratio, ← head]
    rfl

/-- What the checks of R16 on the arithmetic leave: the expansion fields of a stage, and R139's figures of them. -/
theorem figures_of_stage {et ep : Option Int} {stage : Nat} (hasEt : et.isSome = decide (1 ≤ stage))
    (hasEp : ep.isSome = decide (2 ≤ stage))
    (whole : (stage != 3 || (decide (0 < et.getD 0) && decide (0 ≤ ep.getD 0) && decide (ep.getD 0 ≤ et.getD 0))) = true)
    (q : Nat) (ran : (if (stage == 3) = true then some ((ep.getD 0).natAbs * 10000 / (et.getD 0).natAbs) else none) = some q) :
    ∃ e p : Nat, et = some (e : Int) ∧ ep = some (p : Int) ∧ 0 < e ∧ p ≤ e ∧ q = p * 10000 / e ∧
      (if (stage == 3) = true then some (et.getD 0 - ep.getD 0) else none) = some ((e : Int) - p) := by
  have three : stage = 3 := by
    by_contra other
    simp [other] at ran
  subst three
  obtain ⟨e, rfl⟩ := Option.isSome_iff_exists.mp hasEt
  obtain ⟨p, rfl⟩ := Option.isSome_iff_exists.mp hasEp
  have ⟨⟨pos, low⟩, le⟩ : (0 < e ∧ 0 ≤ p) ∧ p ≤ e := by simpa using whole
  lift e to Nat using by omega
  lift p to Nat using low
  refine ⟨e, p, rfl, rfl, by omega, by omega, ?_, rfl⟩
  simpa using ran.symm

/-- A reader answers no test part but one that may be sent, with no readings (R16). -/
theorem readTest_answers (sender : Addr) :
    Answers (readTest sender) fun x => x.Sendable sender ∧ x.received = x := by
  have stamp (present : Bool) := readIf_answers present (readNat_answers 2)
  have signed (present : Bool) := readIf_answers present readSigned24_answers
  have caused (present : Bool) (n : Nat) : Answers (readIf present (do
        require (1 ≤ n && n ≤ 21)
        readSome (Cause.ofCode n))) fun o => o.isSome = present ∧ ∀ c, o = some c → c.code ≤ 21 :=
    readIf_answers present ((require_answers _).bind fun _ range => (readSome_answers _).mono fun c named => by
      rw [Cause.code_ofCode n c named]
      simp only [Bool.and_eq_true, decide_eq_true_eq] at range
      exact range.2)
  refine (readNat_answers 1).bind fun b1 _ => (readNat_answers 1).bind fun b2 small2 => (readNat_answers 1).bind fun b3 _ => ?_
  refine (require_answers _).bind fun _ _ => (require_answers _).bind fun _ _ => (require_answers _).bind fun _ _ =>
    (caused _ _).bind fun cause hasCause => (require_answers _).bind fun _ judged => (require_answers _).bind fun _ empty => ?_
  refine (readNat_answers 2).bind fun peak peakSmall => (stamp _).bind fun zeroStamp zero => (stamp _).bind fun holdStart start =>
    (stamp _).bind fun holdEnd stop => (stamp _).bind fun holdMean mean => (signed _).bind fun et hasEt =>
    (signed _).bind fun ep hasEp => (readMany_answers _ (readCause_answers 1 14)).bind fun conditions conds =>
    (require_answers _).bind fun _ quiet => (require_answers _).bind fun _ whole => .pure ⟨?_, rfl⟩
  rw [Bool.and_eq_true, distinctCauses_iff] at quiet
  rw [beq_iff_eq, Bool.eq_iff_iff] at judged empty
  refine ⟨rfl, peakSmall, ?_, ?_, hasCause.2, ?_, stop.1.trans mean.1.symm, ?_, quiet.1, fun c hc => (conds.2 c hc).2, ?_, ?_,
    ?_, ?_, figures_of_stage hasEt.1 hasEp.1 whole⟩
  · rw [empty, beq_iff_eq]
  · rw [hasCause.1, judged, bne_iff_ne]
  · rintro v (hv | hv | hv | hv)
    · exact zero.2 v hv
    · exact start.2 v hv
    · exact stop.2 v hv
    · exact mean.2 v hv
  · show conditions.length ≤ 3
    omega
  · intro has
    have ran := of_decide_eq_true (hasEt.1.symm.trans has)
    have := quiet.2
    generalize b3 / 8 % 4 = stage at *
    have positive : ¬ stage = 0 := by omega
    simpa [positive] using this
  · intro has
    have ran := of_decide_eq_true (hasEp.1.symm.trans has)
    exact hasEt.1.trans (decide_eq_true (by omega))
  · rintro v (hv | hv)
    · exact hasEt.2 v hv
    · exact hasEp.2 v hv
  · intro no
    dsimp only at no ⊢
    split at no
    · cases no
    · exact if_neg ‹_›

end Sys2Proof.Machine
end

section
/-! The body of a docket on the wire (Table 1-8, R15, R16): written and read field by field, and the lengths of its kinds. -/

namespace Sys2Proof.Machine

/-! ### The flag bytes and the fields -/

theorem Intent.ofCode_code (i : Intent) : Intent.ofCode i.code = some i := by cases i <;> rfl

theorem Intent.code_lt (i : Intent) : i.code < 8 := by cases i <;> decide

/-- The fields of the first byte of a docket's body (Table 1-8, order 1). -/
theorem flagByte_fields (ree lot reason test retest : Bool) (n : Nat) (hn : n ≤ 6) (b : Nat)
    (hb : bitIf ree 128 + bitIf lot 64 + bitIf reason 32 + bitIf test 16 + bitIf retest 8 + n = b) :
    b < 256 ∧ (b / 128 == 1) = ree ∧ (b / 64 % 2 == 1) = lot ∧ (b / 32 % 2 == 1) = reason ∧ (b / 16 % 2 == 1) = test ∧
      (b / 8 % 2 == 1) = retest ∧ b % 8 = n := by
  simp only [bitIf_eq] at hb
  have := ree.toNat_le
  have := lot.toNat_le
  have := reason.toNat_le
  have := test.toNat_le
  have := retest.toNat_le
  exact ⟨by omega, beq_one_of_toNat (by omega), beq_one_of_toNat (by omega), beq_one_of_toNat (by omega),
    beq_one_of_toNat (by omega), beq_one_of_toNat (by omega), by omega⟩

/-- The fields of the class byte (Table 1-8, order 3). -/
theorem classByte_fields (cls code : Nat) (limits : Bool) (low : 1 ≤ cls) (high : cls ≤ 8) (hc : code < 8) (b : Nat)
    (hb : (cls - 1) * 32 + code * 4 + bitIf limits 2 = b) :
    b < 256 ∧ (b % 2 == 0) = true ∧ b / 32 + 1 = cls ∧ b / 4 % 8 = code ∧ (b / 2 % 2 == 1) = limits := by
  rw [bitIf_eq] at hb
  have := limits.toNat_le
  exact ⟨by omega, beq_iff_eq.mpr (by omega), by omega, by omega, beq_one_of_toNat (by omega)⟩

/-- The findings of a body of kind `k`: packed codes in a return, else a byte each (Table 1-8, order 18). -/
def findingsBytes (k : MsgKind) (l : List Finding) : List Byte :=
  if k == .docketReturn then packFindings l else l.map findingByte

/-- The bytes of a docket's body, field by field. -/
theorem docketBody_eq (k : MsgKind) (d : Docket) (tag : Nat) (p : Period) (m l : Nat) (i : Intent)
    (hTag : d.tag = some tag) (hPeriod : d.period = some p) (hMass : d.mass = some m) (hLoss : d.massLoss = some l)
    (hIntent : d.intent = some i) (pair : d.ratioLimit.isSome = d.holdTime.isSome) :
    docketBody k d =
      BitVec.ofNat 8 (bitIf d.ree.isSome 128 + bitIf d.lotEntry.isSome 64 + bitIf d.reason.isSome 32 +
        bitIf d.test.isSome 16 + bitIf d.retest 8 + d.findings.length) ::
      (beBytes 2 tag ++
      (BitVec.ofNat 8 ((d.cls - 1) * 32 + i.code * 4 + bitIf d.ratioLimit.isSome 2) ::
      BitVec.ofNat 8 d.serial.length ::
      (packChars (d.mfr ++ d.serial) ++
      (BitVec.ofNat 8 (d.lastMonth * 16 + p.month) :: BitVec.ofNat 8 d.lastYear :: BitVec.ofNat 8 d.mfgYear ::
      BitVec.ofNat 8 (p.year - 2000) ::
      (beBytes 2 d.testPressure ++ (beBytes 2 d.waterCapacity ++ (beBytes 2 d.tare ++
      (d.ratioLimit.elim [] (beBytes 2) ++ (d.holdTime.elim [] (beBytes 2) ++
      (beBytes 2 m ++ (beBytes 2 l ++ (d.ree.elim [] (beBytes 3) ++
      (findingsBytes k d.findings ++
      (d.lotEntry.elim [] (fun e => [BitVec.ofNat 8 e]) ++ (d.reason.elim [] (fun c => [BitVec.ofNat 8 c.code]) ++
      d.test.elim [] testBytes))))))))))))))) := by
  have limits (rest : List Byte) : d.ratioLimit.elim [] (beBytes 2) ++ (d.holdTime.elim [] (beBytes 2) ++ rest) =
      d.ratioLimit.elim [] (fun r => beBytes 2 r ++ beBytes 2 (d.holdTime.getD 0)) ++ rest := by
    cases hr : d.ratioLimit <;> cases hh : d.holdTime <;> simp_all
  unfold docketBody
  rw [limits, hTag, hPeriod, hMass, hLoss, hIntent]
  simp only [List.append_assoc, List.cons_append, List.nil_append]
  congr 20
  · cases d.ratioLimit <;> rfl
  · cases d.ree <;> rfl
  · cases d.lotEntry <;> rfl
  · cases d.reason <;> rfl
  · cases d.test <;> rfl

/-! ### Findings -/

theorem findingsBytes_reads (k : MsgKind) (l : List Finding)
    (severe : k ≠ .docketReturn → ∀ f ∈ l, f.severity.isSome = true) :
    Reads (if (k == .docketReturn) = true then readPacked l.length else readMany readFinding l.length) (findingsBytes k l)
      (if k = .docketReturn then l.map Finding.codeOnly else l) := by
  unfold findingsBytes
  by_cases back : k = .docketReturn
  · simp only [back, beq_self_eq_true, if_true]
    exact packFindings_reads l
  · simp only [beq_eq_false_iff_ne.mpr back, if_neg back, Bool.false_eq_true, if_false]
    exact fun rest => readMany_map _ _ _ rest fun f hf more => findingByte_reads f (severe back f hf) more

/-- Findings without severities are their codes. -/
theorem map_codeOnly (l : List Finding) (bare : ∀ f ∈ l, f.severity = none) : l.map Finding.codeOnly = l := by
  refine (List.map_congr_left fun f hf => ?_).trans (List.map_id l)
  show Finding.mk f.code none = f
  rw [← bare f hf]

theorem readFindings_answers (k : MsgKind) (n : Nat) :
    Answers (if (k == .docketReturn) = true then readPacked n else readMany readFinding n) fun l => l.length = n ∧
      (k = .docketReturn → ∀ f ∈ l, f.severity = none) ∧ (k ≠ .docketReturn → ∀ f ∈ l, f.severity.isSome = true) := by
  by_cases back : k = .docketReturn
  · simp only [back, beq_self_eq_true, if_true]
    exact (readPacked_answers n).mono fun l hl => ⟨hl.1, fun _ => hl.2, fun no => absurd rfl no⟩
  · simp only [beq_eq_false_iff_ne.mpr back, Bool.false_eq_true, if_false]
    exact (readMany_answers n readFinding_answers).mono fun l hl => ⟨hl.1, fun yes => absurd yes back, fun _ => hl.2⟩

section
variable {α β : Type}

/-- A reading chosen by a condition, with the rest of the body after it. -/
theorem choice_bind (c : Prop) [Decidable c] (r r' : Reader α) (f : α → Reader β) :
    (if c then r >>= f else r' >>= f) = (if c then r else r') >>= f := by
  split <;> rfl

end

/-! ### What a kind carries -/

/-- A docket has the parts of its kind exactly when its form check says so (R16). -/
theorem Docket.Sendable.form {k : MsgKind} {sender : Addr} {d : Docket} (h : d.Sendable k sender) :
    kindForm k (d.received k) = true ∧ d.intent.isSome = true ∧
      (k ≠ .docketReturn → ∀ f ∈ d.findings, f.severity.isSome = true) := by
  obtain ⟨-, -, -, -, -, -, -, -, -, -, -, -, -, -, -, -, -, -, -, -, -, -, -, -, -, -, -, -, -, -, parts⟩ := h
  cases k with
  | docketOffer =>
    obtain ⟨test, lot, reason, intent, limits, severe⟩ := parts
    exact ⟨by simp [kindForm, Docket.received, test, lot, reason, intent, limits], by rw [intent]; rfl, fun _ => severe⟩
  | docketDirect =>
    obtain ⟨test, reason, some', intent, severe⟩ := parts
    exact ⟨by simp [kindForm, Docket.received, test, reason, intent], some', fun _ => severe⟩
  | docketReturn =>
    obtain ⟨test, lot, reason, intent, limits⟩ := parts
    exact ⟨by simp [kindForm, Docket.received, test, lot, reason, intent, limits], by rw [intent]; rfl,
      fun no => absurd rfl no⟩
  | _ => exact parts.elim

/-- A docket that may be sent is read as it was written, but for what does not travel (R15). -/
theorem docketBody_reads (k : MsgKind) (sender : Addr) (d : Docket) (h : d.Sendable k sender) :
    Reads (readDocket k sender) (docketBody k d) (d.received k) := by
  obtain ⟨-, hasIntent, severe⟩ := h.form
  obtain ⟨i, intent⟩ := Option.isSome_iff_exists.mp hasIntent
  obtain ⟨⟨tag, hTag, tagSmall⟩, three, mfr, serialLow, serialHigh, serial, hash, clsLow, clsHigh, pressureLow, pressureHigh,
    waterLow, waterHigh, tareLow, tareHigh, ree, ratio, hold, pair, lastLow, lastHigh, lastYear, mfgYear,
    ⟨p, period, monthLow, monthHigh, yearLow, yearHigh⟩, ⟨m, mass, massLow, massHigh⟩, ⟨l, loss, lossHigh⟩, six, lot, reason,
    test, -⟩ := h
  rw [docketBody_eq k d tag p m l i hTag period mass loss intent pair]
  generalize hb0 : bitIf d.ree.isSome 128 + bitIf d.lotEntry.isSome 64 + bitIf d.reason.isSome 32 +
    bitIf d.test.isSome 16 + bitIf d.retest 8 + d.findings.length = b0
  generalize hb3 : (d.cls - 1) * 32 + i.code * 4 + bitIf d.ratioLimit.isSome 2 = b3
  obtain ⟨small0, b0ree, b0lot, b0reason, b0test, b0retest, b0count⟩ := flagByte_fields _ _ _ _ _ _ six b0 hb0
  obtain ⟨small3, b3pad, b3cls, b3code, b3limits⟩ := classByte_fields _ _ _ clsLow clsHigh i.code_lt b3 hb3
  have months : (d.lastMonth * 16 + p.month) / 16 = d.lastMonth ∧ (d.lastMonth * 16 + p.month) % 16 = p.month := by omega
  refine (readNat_readsByte b0 small0).cons ((readNat_reads 2 tag tagSmall).bind ((readNat_readsByte b3 small3).cons ?_))
  rw [b3pad, b3code, b3limits, b3cls, b0ree, b0lot, b0reason, b0test, b0retest, b0count]
  have byte {lo hi v : Nat} (low : lo ≤ v) (high : v ≤ hi) (small : hi < 256) : Reads (readIn 1 lo hi) [BitVec.ofNat 8 v] v :=
    readIn_readsByte lo hi v (by omega) low high
  have word {lo hi v : Nat} (low : lo ≤ v) (high : v ≤ hi) (small : hi < 65536) : Reads (readIn 2 lo hi) (beBytes 2 v) v :=
    readIn_reads 2 lo hi v (Nat.lt_of_le_of_lt high small) low high
  have limits : Reads (readIf d.ratioLimit.isSome (readIn 2 100 2000)) (d.ratioLimit.elim [] (beBytes 2)) d.ratioLimit :=
    .optional _ rfl fun v hv => word (ratio v hv).1 (ratio v hv).2 (by omega)
  have holds : Reads (readIf d.ratioLimit.isSome (readIn 2 10 300)) (d.holdTime.elim [] (beBytes 2)) d.holdTime :=
    .optional _ pair fun v hv => word (hold v hv).1 (hold v hv).2 (by omega)
  have rees : Reads (readIf d.ree.isSome (readIn 3 1 1000000)) (d.ree.elim [] (beBytes 3)) d.ree :=
    .optional _ rfl fun v hv => readIn_reads 3 1 1000000 v (Nat.lt_of_le_of_lt (ree v hv).2 (by omega)) (ree v hv).1 (ree v hv).2
  have lots : Reads (readIf d.lotEntry.isSome (readIn 1 0 15)) (d.lotEntry.elim [] fun e => [BitVec.ofNat 8 e]) d.lotEntry :=
    .optional _ rfl fun v hv => byte (Nat.zero_le v) (lot v hv) (by omega)
  have reasons : Reads (readIf d.reason.isSome (readCause 32 41)) (d.reason.elim [] fun c => [BitVec.ofNat 8 c.code]) d.reason :=
    .optional _ rfl fun c hc rest => readCause_byte 32 41 c rest (reason c hc).1 (reason c hc).2 (by
      have := (reason c hc).2
      omega)
  have tests : Reads (readIf d.test.isSome (readTest sender)) (d.test.elim [] testBytes) (d.test.map TestPart.received) := by
    cases has : d.test with
    | none => exact .none rfl
    | some x => exact fun rest => readIf_present _ _ _ rest (testBytes_reads sender x (test x has) rest)
  refine Reads.check rfl (Reads.exists i.ofCode_code ((byte serialLow serialHigh (by omega)).cons
    ((packChars_reads d.mfr d.serial three mfr serial).bind ((readNat_readsByte _ (by omega)).cons ?_))))
  dsimp only
  rw [months.1, months.2]
  refine Reads.check (by simp [*]) ((byte (Nat.zero_le _) lastYear (by omega)).cons
    ((byte (Nat.zero_le _) mfgYear (by omega)).cons ((byte (hi := 99) (Nat.zero_le _) (by omega) (by omega)).cons
    ((word pressureLow pressureHigh (by omega)).bind ((word waterLow waterHigh (by omega)).bind
    ((word tareLow tareHigh (by omega)).bind (limits.bind (holds.bind ((word massLow massHigh (by omega)).bind
    ((word (Nat.zero_le _) lossHigh (by omega)).bind (rees.bind (Reads.check (by simp [six]) ?_))))))))))))
  rw [choice_bind]
  refine (findingsBytes_reads k d.findings severe).bind (lots.bind (reasons.bind (tests.last (Reads.done ?_))))
  cases d with
  | mk =>
    dsimp only [Docket.received] at *
    subst hTag period mass loss intent hash
    rw [Nat.add_sub_of_le yearLow]
    rfl

/-- The reader of a docket answers one that may be sent when it has the form of its kind, and as its receiver holds
it (R16). -/
theorem readDocket_answers (k : MsgKind) (sender : Addr) :
    Answers (readDocket k sender) fun d => kindForm k d = true → d.Sendable k sender ∧ d.received k = d := by
  have word (lo hi : Nat) := readIn_answers 2 lo hi
  refine (readNat_answers 1).bind fun b0 _ => (readNat_answers 2).bind fun tag tagSmall => (readNat_answers 1).bind fun b3 small3 =>
    (require_answers _).bind fun _ _ => (readSome_answers _).bind fun intent _ => (readIn_answers 1 1 12).bind fun n nRange =>
    (readChars_answers n).bind fun id chars => (readNat_answers 1).bind fun months _ => ?_
  dsimp only
  refine (require_answers _).bind fun _ monthRange => (readIn_answers 1 0 99).bind fun lastYear last =>
    (readIn_answers 1 0 99).bind fun mfgYear mfg => (readIn_answers 1 0 99).bind fun year inYear =>
    (word 500 45000).bind fun pressure pressureRange => (word 5 1500).bind fun water waterRange =>
    (word 50 20000).bind fun tare tareRange => (readIf_answers _ (word 100 2000)).bind fun ratio ratioRange =>
    (readIf_answers _ (word 10 300)).bind fun hold holdRange => (word 1 30000).bind fun mass massRange =>
    (word 0 10000).bind fun loss lossRange => (readIf_answers _ (readIn_answers 3 1 1000000)).bind fun ree reeRange =>
    (require_answers _).bind fun _ six => ?_
  rw [choice_bind]
  refine (readFindings_answers k _).bind fun findings found => (readIf_answers _ (readIn_answers 1 0 15)).bind fun lot lotRange =>
    (readIf_answers _ (readCause_answers 32 41)).bind fun reason reasonRange =>
    (readIf_answers _ (readTest_answers sender)).bind fun test tested => .pure fun form => ?_
  obtain ⟨⟨three, mfr⟩, serialLength, serial⟩ := chars
  simp only [Bool.and_eq_true, decide_eq_true_eq] at monthRange six
  obtain ⟨⟨⟨lastLow, lastHigh⟩, monthLow⟩, monthHigh⟩ := monthRange
  refine ⟨⟨⟨tag, rfl, tagSmall⟩, three, mfr, serialLength ▸ nRange.1, serialLength ▸ nRange.2, serial, rfl, ?_, ?_, pressureRange.1,
    pressureRange.2, waterRange.1, waterRange.2, tareRange.1, tareRange.2, reeRange.2, ratioRange.2, holdRange.2,
    ratioRange.1.trans holdRange.1.symm, lastLow, lastHigh, last.2, mfg.2,
    ⟨_, rfl, monthLow, monthHigh, Nat.le_add_right _ _, Nat.add_le_add_left inYear.2 _⟩, ⟨mass, rfl, massRange⟩,
    ⟨loss, rfl, lossRange.2⟩, found.1.trans_le six, fun v hv => (lotRange.2 v hv).2, reasonRange.2,
    fun x hx => (tested.2 x hx).1, ?_⟩, ?_⟩
  · exact Nat.le_add_left 1 _
  · show b3 / 32 + 1 ≤ 8
    omega
  · cases k with
    | docketOffer =>
      simp only [kindForm, Bool.and_eq_true, Option.isNone_iff_eq_none, beq_iff_eq] at form
      obtain ⟨⟨⟨⟨noTest, noLot⟩, noReason⟩, isTest⟩, limits⟩ := form
      exact ⟨noTest, noLot, noReason, isTest, limits, found.2.2 (by decide)⟩
    | docketDirect =>
      simp only [kindForm, Bool.and_eq_true, Option.isNone_iff_eq_none, bne_iff_ne] at form
      obtain ⟨⟨noTest, notTest⟩, hasReason⟩ := form
      exact ⟨noTest, hasReason, rfl, notTest, found.2.2 (by decide)⟩
    | docketReturn =>
      simp only [kindForm, Bool.and_eq_true, Option.isNone_iff_eq_none, beq_iff_eq] at form
      obtain ⟨⟨⟨⟨hasTest, isTest⟩, noLot⟩, noReason⟩, limits⟩ := form
      exact ⟨hasTest, noLot, noReason, isTest, limits⟩
    | _ => cases form
  · have codes : (if k = .docketReturn then findings.map Finding.codeOnly else findings) = findings := by
      split
      next back => exact map_codeOnly findings (found.2.1 back)
      next => rfl
    have parts : test.map TestPart.received = test := by
      cases test with
      | none => rfl
      | some x => exact congrArg some (tested.2 x rfl).2
    unfold Docket.received
    dsimp only
    rw [parts]
    exact congrArg (fun l => Docket.mk _ _ _ _ _ _ _ _ _ _ _ _ _ _ _ _ _ l _ _ _ _ _ _) codes

/-! ### The lengths -/

theorem testBytes_length (sender : Addr) (x : TestPart) (h : x.Sendable sender) :
    5 ≤ (testBytes x).length ∧ (testBytes x).length ≤ 19 := by
  obtain ⟨⟨-, et, ep⟩, -⟩ := h.arithmetic
  obtain ⟨-, -, -, -, -, -, means, three, -, -, exclusive, -⟩ := h
  have stamp (o : Option Nat) := elim_length o (beBytes 2) 2 fun v => beBytes_length 2 v
  have signed (o : Option Int) := elim_length o signed24 3 fun v => beBytes_length 3 _
  rw [testBytes_eq x means et ep]
  simp only [List.length_cons, List.length_append, beBytes_length, stamp, signed, List.length_map, bitIf_eq]
  have := x.zeroStamp.isSome.toNat_le
  have := x.holdStart.isSome.toNat_le
  have := x.holdEnd.isSome.toNat_le
  have := x.holdMean.isSome.toNat_le
  have := x.ep.isSome.toNat_le
  have := x.et.isSome.toNat_le
  cases has : x.et.isSome with
  | false =>
    simp only [Bool.toNat_false]
    omega
  | true =>
    simp only [exclusive has, List.length_nil, Bool.toNat_true]
    omega

theorem packChars_length (t : Text) : (packChars t).length = packedLength t.length := beBytes_length _ _

theorem packFindings_length : ∀ l : List Finding, (packFindings l).length = (l.length + 1) / 2
  | [] => rfl
  | [a] => by simp [packFindings]
  | _ :: _ :: rest => by
    have := packFindings_length rest
    simp only [packFindings, List.length_cons]
    omega

theorem findingsBytes_length (k : MsgKind) (l : List Finding) : (findingsBytes k l).length ≤ l.length ∧
    (k = .docketReturn → (findingsBytes k l).length = (l.length + 1) / 2) := by
  unfold findingsBytes
  split
  · rw [packFindings_length]
    omega
  next other => exact ⟨(List.length_map _).le, fun back => absurd (beq_iff_eq.mpr back) other⟩

theorem docketBody_length (k : MsgKind) (d : Docket) (sender : Addr) (h : d.Sendable k sender) :
    (docketBody k d).length = 19 + packedLength (3 + d.serial.length) + bitIf d.ratioLimit.isSome 4 + bitIf d.ree.isSome 3 +
      (findingsBytes k d.findings).length + bitIf d.lotEntry.isSome 1 + bitIf d.reason.isSome 1 +
      (d.test.elim [] testBytes).length := by
  obtain ⟨-, hasIntent, -⟩ := h.form
  obtain ⟨i, intent⟩ := Option.isSome_iff_exists.mp hasIntent
  obtain ⟨⟨tag, hTag, -⟩, three, -, -, -, -, -, -, -, -, -, -, -, -, -, -, -, -, pair, -, -, -, -, ⟨p, period, -⟩,
    ⟨m, mass, -⟩, ⟨l, loss, -⟩, -⟩ := h
  have two (o : Option Nat) := elim_length o (beBytes 2) 2 fun v => beBytes_length 2 v
  have ree := elim_length d.ree (beBytes 3) 3 fun v => beBytes_length 3 v
  have lot := elim_length d.lotEntry (fun e => [BitVec.ofNat 8 e]) 1 fun _ => rfl
  have reason := elim_length d.reason (fun c => [BitVec.ofNat 8 c.code]) 1 fun _ => rfl
  rw [docketBody_eq k d tag p m l i hTag period mass loss intent pair]
  simp only [List.length_cons, List.length_append, beBytes_length, packChars_length, two, ree, lot, reason, three, ← pair, bitIf_eq]
  omega

/-- The body of a docket that may be sent has a length of its kind (Table 3-1). -/
theorem docketBody_lengthOk (k : MsgKind) (sender : Addr) (d : Docket) (h : d.Sendable k sender) :
    k.lengthOk (docketBody k d).length = true := by
  have identity : 3 ≤ packedLength (3 + d.serial.length) ∧ packedLength (3 + d.serial.length) ≤ 12 := by
    obtain ⟨-, -, -, low, high, -⟩ := h
    unfold packedLength
    omega
  obtain ⟨atMost, halved⟩ := findingsBytes_length k d.findings
  rw [docketBody_length k d sender h]
  have := d.ree.isSome.toNat_le
  have := d.lotEntry.isSome.toNat_le
  have := d.ratioLimit.isSome.toNat_le
  obtain ⟨-, -, -, -, -, -, -, -, -, -, -, -, -, -, -, -, -, -, -, -, -, -, -, -, -, -, six, -, -, tests, parts⟩ := h
  simp only [bitIf_eq]
  cases k with
  | docketOffer =>
    obtain ⟨test, lot, reason, -, limits, -⟩ := parts
    simp only [MsgKind.lengthOk, test, lot, reason, limits, Option.elim_none, List.length_nil, Option.isSome_none,
      Bool.toNat_false, Bool.toNat_true, Bool.and_eq_true, decide_eq_true_eq]
    omega
  | docketDirect =>
    obtain ⟨test, reason, -⟩ := parts
    simp only [MsgKind.lengthOk, test, reason, Option.elim_none, List.length_nil, Bool.toNat_true, Bool.and_eq_true,
      decide_eq_true_eq]
    omega
  | docketReturn =>
    obtain ⟨hasTest, lot, reason, -, limits⟩ := parts
    obtain ⟨x, test⟩ := Option.isSome_iff_exists.mp hasTest
    have part := testBytes_length sender x (tests x test)
    have findings := halved rfl
    simp only [MsgKind.lengthOk, test, lot, reason, limits, Option.elim_some, Option.isSome_none, Bool.toNat_false,
      Bool.toNat_true, Bool.and_eq_true, decide_eq_true_eq]
    omega
  | _ => exact parts.elim

/-! ### The form check -/

theorem parseDocket_docketBody (k : MsgKind) (sender : Addr) (d : Docket) (h : d.Sendable k sender) :
    parseDocket k sender (docketBody k d) = some (d.received k) := by
  have ran := docketBody_reads k sender d h []
  rw [List.append_nil] at ran
  simp only [parseDocket, ran, h.form.1, if_true]

/-- Whatever passes the form check is read from the body, whole, and has the form of its kind. -/
theorem readDocket_of_parseDocket {k : MsgKind} {sender : Addr} {body : List Byte} {d : Docket}
    (h : parseDocket k sender body = some d) : readDocket k sender body = some (d, []) ∧ kindForm k d = true := by
  unfold parseDocket at h
  split at h
  next ran =>
    split at h
    next form =>
      cases h
      exact ⟨ran, form⟩
    next => cases h
  next => cases h

/-- Settles O19: a post by its fields (`makePost_reads_back`), a docket's body by the readers of its fields, each of which
reads what was written (`Reads`) and answers none but what may be written (`Answers`). -/
theorem postsAndDocketsReadBack : Obligations.PostsAndDocketsReadBack := by
  unfold Obligations.PostsAndDocketsReadBack
  refine ⟨fun r state arg code field good => makePost_reads_back r state arg code field good, fun k sender d h =>
    ⟨parseDocket_docketBody k sender d h, docketBody_lengthOk k sender d h⟩, fun k sender body d h => ?_⟩
  obtain ⟨ran, form⟩ := readDocket_of_parseDocket h
  exact readDocket_answers k sender body d [] ran form

end Sys2Proof.Machine
end

section
/-! The transmit queue stays in contention-key order (R46): what places a message, what takes messages away or marks them,
then the operations of the disposal unit, which queue notes and calls, and of the line, in the order of the model. -/

namespace Sys2Proof.Machine

/-! ### Queues in order -/

/-- The messages of a queue stand in the order of urgency and kind code (R46). -/
def InKeyOrder (q : List TxMsg) : Prop := q.Pairwise fun x y => x.kind.order ≤ y.kind.order

theorem queueOrdered_iff (s : State) : QueueOrdered s ↔ InKeyOrder s.txq := Iff.rfl

/-- A new message stands behind those that sort at or before it and ahead of those that sort after it (R46). -/
theorem insertMsg_eq (m : TxMsg) (q : List TxMsg) (h : InKeyOrder q) :
    insertMsg m q =
      q.filter (fun x => x.kind.order ≤ m.kind.order) ++ m :: q.filter (fun x => m.kind.order < x.kind.order) := by
  induction q with
  | nil => rfl
  | cons x q ih =>
    obtain ⟨front, rest⟩ := List.pairwise_cons.mp h
    by_cases le : x.kind.order ≤ m.kind.order
    · simp [insertMsg, le, ih rest]
    · have after : ∀ y ∈ q, m.kind.order < y.kind.order := fun y hy => Nat.lt_of_lt_of_le (Nat.not_le.mp le) (front y hy)
      have none' : q.filter (fun y => y.kind.order ≤ m.kind.order) = [] := by simpa using after
      have all : q.filter (fun y => m.kind.order < y.kind.order) = q := by simpa using after
      simp [insertMsg, le, Nat.not_le.mp le, none', all]

theorem InKeyOrder.sublist {q r : List TxMsg} (h : InKeyOrder q) (sub : r.Sublist q) : InKeyOrder r :=
  List.Pairwise.sublist sub h

theorem InKeyOrder.insert {q : List TxMsg} (h : InKeyOrder q) (m : TxMsg) : InKeyOrder (insertMsg m q) := by
  rw [insertMsg_eq m q h]
  refine List.pairwise_append.mpr ⟨InKeyOrder.sublist h List.filter_sublist, List.pairwise_cons.mpr
    ⟨fun y hy => ?_, InKeyOrder.sublist h List.filter_sublist⟩, fun x hx y hy => ?_⟩
  · exact Nat.le_of_lt (by simpa using (List.mem_filter.mp hy).2)
  · have low : x.kind.order ≤ m.kind.order := by simpa using (List.mem_filter.mp hx).2
    rcases List.mem_cons.mp hy with rfl | hy
    · exact low
    · exact Nat.le_trans low (Nat.le_of_lt (by simpa using (List.mem_filter.mp hy).2))

/-- Messages that leave, or stay with their kind, leave the others in order. -/
theorem InKeyOrder.filterMap {q : List TxMsg} (h : InKeyOrder q) (f : TxMsg → Option TxMsg)
    (kind : ∀ x y, f x = some y → y.kind = x.kind) : InKeyOrder (q.filterMap f) :=
  List.Pairwise.filterMap f (fun x y le x' hx y' hy => by rw [kind x x' hx, kind y y' hy]; exact le) h

theorem InKeyOrder.map {q : List TxMsg} (h : InKeyOrder q) (f : TxMsg → TxMsg) (kind : ∀ x, (f x).kind = x.kind) :
    InKeyOrder (q.map f) :=
  List.Pairwise.map f (fun x y le => by rw [kind x, kind y]; exact le) h

section
variable {s : State}

/-- An operation that leaves the transmit queue alone. -/
theorem QueueOrdered.of_txq {t : State} (h : QueueOrdered s) (same : t.txq = s.txq) : QueueOrdered t := by
  rw [queueOrdered_iff, same]
  exact h

theorem QueueOrdered.of_outsideHead {t : State} (h : QueueOrdered s) (same : t.outsideHead = s.outsideHead) :
    QueueOrdered t :=
  h.of_txq (congrArg State.txq same :)

/-- Both ways of a choice. -/
theorem ite_queueOrdered {c : Prop} [Decidable c] {a b : State} (yes : QueueOrdered a) (no : QueueOrdered b) :
    QueueOrdered (if c then a else b) := by
  split
  · exact yes
  · exact no

/-! ### The shared operations -/

theorem queueMsg_queueOrdered (m : TxMsg) (h : QueueOrdered s) : QueueOrdered (queueMsg m s) :=
  ite_queueOrdered (InKeyOrder.insert h m) h

theorem withdrawMsg_queueOrdered (k : MsgKind) (h : QueueOrdered s) : QueueOrdered (withdrawMsg k s) := by
  refine InKeyOrder.filterMap h _ fun x y hy => ?_
  split at hy
  · cases hy; rfl
  · split at hy <;> cases hy; rfl

theorem removeContender_queueOrdered (h : QueueOrdered s) : QueueOrdered (removeContender s) :=
  InKeyOrder.sublist h List.eraseP_sublist

theorem countUnaccepted_queueOrdered (h : QueueOrdered s) : QueueOrdered (countUnaccepted s) := by
  refine InKeyOrder.filterMap h _ fun x y hy => ?_
  split at hy
  · cases hy; rfl
  · split at hy <;> cases hy; rfl

theorem queueCard_queueOrdered (r : Role) (h : QueueOrdered s) : QueueOrdered (queueCard r s) :=
  ite_queueOrdered h (queueMsg_queueOrdered _ h)

theorem refreshShare_queueOrdered (h : QueueOrdered s) : QueueOrdered (refreshShare s) := ite_queueOrdered h h

theorem endRound_queueOrdered (h : QueueOrdered s) : QueueOrdered (endRound s) := ite_queueOrdered h h

/-! ### The disposal unit -/

theorem queueNote_queueOrdered (d : Docket) (h : QueueOrdered s) : QueueOrdered (queueNote d s) :=
  queueMsg_queueOrdered _ h

theorem finishLine_queueOrdered (w : Waiter) (h : QueueOrdered s) : QueueOrdered (finishLine w s) := by
  unfold finishLine
  split
  · exact queueNote_queueOrdered _ (s := s.withDsu _) h
  · exact queueNote_queueOrdered _ (s := s.withDsu _) h
  · exact h

theorem enterBuffer_queueOrdered (w : Waiter) (h : QueueOrdered s) : QueueOrdered (enterBuffer w s) :=
  finishLine_queueOrdered w (s := s.withDsu _) h

theorem produceLine_queueOrdered (w : Waiter) (h : QueueOrdered s) : QueueOrdered (produceLine w s) :=
  ite_queueOrdered (enterBuffer_queueOrdered w h) h

theorem lineSent_queueOrdered (h : QueueOrdered s) : QueueOrdered (lineSent s) := by
  unfold lineSent
  split
  · exact h
  · dsimp only
    split
    · exact h
    · exact enterBuffer_queueOrdered _ (s := State.withDsu _ _) h

theorem settle_queueOrdered (disp : Disposition) (c : Option Cause) (lane : BitVec 2) (h : QueueOrdered s) :
    QueueOrdered (settle disp c lane s) := by
  unfold settle
  split
  · rename_i d _
    exact produceLine_queueOrdered { line := .docket { d with disposal := some ⟨disp, c⟩ }, source := .work }
      (s := s.withDsu _) h
  · exact h

theorem laneEnd_queueOrdered (h : QueueOrdered s) : QueueOrdered (laneEnd s) := by
  unfold laneEnd
  split
  · refine ite_queueOrdered ?_ h
    split <;> exact h
  · exact h

theorem markFault_queueOrdered (c : Cause) (h : QueueOrdered s) : QueueOrdered (markFault c s) :=
  settle_queueOrdered .held (some c) laneHold (s := s.withDsu _) h

/-- An exchange keeps the order when what its reply does keeps it (R169). -/
theorem exchange_queueOrdered (cmd : BitVec 24) (next : Nat) (r : LinkReply)
    {f : Except Cause (BitVec 24) → State → State} (replied : ∀ e u, QueueOrdered u → QueueOrdered (f e u))
    (h : QueueOrdered s) : QueueOrdered (exchange cmd next r f s) := by
  have answered (w : BitVec 24) (b : Bool) : QueueOrdered (exchange cmd next (.word w b) f s) := by
    cases fault : replyFault cmd w b with
    | none =>
      rw [exchange_good _ _ _ _ _ _ fault]
      exact replied _ _ h
    | some c =>
      rw [exchange_bad _ _ _ _ _ _ c fault]
      exact replied _ _ h
  cases r with
  | silent => exact answered cmd true
  | word w b => exact answered w b
  | stopped => exact h

/-- An exchange of the marking sequence: a fault abandons the sequence (R170, R172). -/
theorem markExchange_queueOrdered (cmd : BitVec 24) (next : Nat) (r : LinkReply) {good : BitVec 24 → State → State}
    (went : ∀ w u, QueueOrdered u → QueueOrdered (good w u)) (h : QueueOrdered s) :
    QueueOrdered (exchange cmd next r (onLink good) s) := by
  refine exchange_queueOrdered _ _ _ (fun e u hu => ?_) h
  cases e with
  | error c => exact markFault_queueOrdered c hu
  | ok w => exact went w u hu

theorem linkLoad_queueOrdered (r : LinkReply) (h : QueueOrdered s) : QueueOrdered (linkLoad r s) := by
  unfold linkLoad
  split
  · exact markExchange_queueOrdered _ _ _ (fun _ _ hu => hu) h
  · exact h

theorem queryReply_queueOrdered (w : BitVec 24) (h : QueueOrdered s) : QueueOrdered (queryReply w s) :=
  ite_queueOrdered h (markFault_queueOrdered _ h)

theorem pollReply_queueOrdered (w : BitVec 24) (h : QueueOrdered s) : QueueOrdered (pollReply w s) :=
  ite_queueOrdered
    (ite_queueOrdered (settle_queueOrdered _ _ _ (s := s.withDsu _) h) (markFault_queueOrdered _ h)) h

theorem linkQuery_queueOrdered (r : LinkReply) (h : QueueOrdered s) : QueueOrdered (linkQuery r s) :=
  ite_queueOrdered (markExchange_queueOrdered _ _ _ (fun w _ hu => queryReply_queueOrdered w hu) h)
    (ite_queueOrdered (markExchange_queueOrdered _ _ _ (fun w _ hu => pollReply_queueOrdered w hu) h) h)

theorem beginAction_queueOrdered (d : Docket) (h : QueueOrdered s) : QueueOrdered (beginAction d s) := by
  unfold beginAction
  split
  · split
    · exact h
    · exact h
    · exact settle_queueOrdered _ _ _ h
    · exact h
  · exact h
  · exact settle_queueOrdered _ _ _ h
  · exact settle_queueOrdered _ _ _ h
  · exact settle_queueOrdered _ _ _ h
  · exact h

theorem identityRead_queueOrdered (m n : Text) (h : QueueOrdered s) : QueueOrdered (identityRead m n s) := by
  unfold identityRead
  split
  · exact beginAction_queueOrdered _ (s := putWork _ _ _) h
  · exact produceLine_queueOrdered { line := .stray m n, source := .stray } (s := putWork _ _ _) h

theorem markRead_queueOrdered (l : PortLine) (h : QueueOrdered s) : QueueOrdered (markRead l s) := by
  unfold markRead
  refine ite_queueOrdered (ite_queueOrdered ?_ h) h
  split
  · exact identityRead_queueOrdered _ _ (s := s.withPorts _) h
  · exact h

theorem finishMissing_queueOrdered (i : Nat) (h : QueueOrdered s) : QueueOrdered (finishMissing i s) := by
  unfold finishMissing
  split
  · exact produceLine_queueOrdered _ (s := s.withDsu _) h
  · exact h

theorem returnAccepted_queueOrdered (d : Docket) (h : QueueOrdered s) : QueueOrdered (returnAccepted d s) :=
  ite_queueOrdered (finishMissing_queueOrdered _ (s := addArrival d _) h) h

theorem callDecision_queueOrdered (h : QueueOrdered s) : QueueOrdered (callDecision s) := by
  unfold callDecision
  split
  · exact ite_queueOrdered (queueMsg_queueOrdered _ (s := s.withDsu _) h) h
  · exact h

theorem callExpiry_queueOrdered (h : QueueOrdered s) : QueueOrdered (callExpiry s) := by
  unfold callExpiry
  split
  · exact ite_queueOrdered (withdrawMsg_queueOrdered _ (s := s.withDsu _) h) h
  · exact h

theorem disposeStop_queueOrdered (h : QueueOrdered s) : QueueOrdered (disposeStop s) := by
  unfold disposeStop
  dsimp only
  split
  · split
    · exact settle_queueOrdered _ _ _ (s := s.withDsu _) h
    · exact h
    · exact h
    · exact h
  · exact h

theorem disposeResume_queueOrdered (h : QueueOrdered s) : QueueOrdered (disposeResume s) :=
  ite_queueOrdered h (ite_queueOrdered h h)

theorem panelReply_queueOrdered (r : Except Cause (BitVec 24)) (h : QueueOrdered s) :
    QueueOrdered (panelReply r s) := by
  cases r with
  | error c => exact h
  | ok w => exact ite_queueOrdered h h

theorem panelClear_queueOrdered (r : LinkReply) (h : QueueOrdered s) : QueueOrdered (panelClear r s) :=
  ite_queueOrdered (ite_queueOrdered
    (exchange_queueOrdered _ _ _ (fun e _ hu => panelReply_queueOrdered e hu) (s := State.withDsu _ _) h) h) h

/-- The commands of the disposal unit keep the order. -/
theorem disposalCommand_queueOrdered (h : QueueOrdered s) (i : Instr) (own : disposalCommand i = true) :
    OutMeets QueueOrdered (exec i s) := by
  cases i with
  | markReaderLine l => exact outMeets_ite (fun _ => markRead_queueOrdered l h) h
  | linkClear r =>
    exact outMeets_ite (fun _ => ite_queueOrdered (markExchange_queueOrdered _ _ _ (fun _ _ hu => hu) h) h) h
  | linkLoad r => exact outMeets_ite (fun _ => linkLoad_queueOrdered r h) h
  | linkQuery r => exact outMeets_ite (fun _ => linkQuery_queueOrdered r h) h
  | linkStrike r =>
    exact outMeets_ite (fun _ => ite_queueOrdered
      (markExchange_queueOrdered _ _ _ (fun _ _ hu => hu) (s := s.withDsu _) h) h) h
  | strikeTimeout => exact outMeets_ite (fun _ => ite_queueOrdered (markFault_queueOrdered _ h) h) h
  | punchDone =>
    exact outMeets_ite (fun _ => ite_queueOrdered (settle_queueOrdered _ _ _ (s := s.withDsu _) h) h) h
  | punchTimeout => exact outMeets_ite (fun _ => ite_queueOrdered h h) h
  | punchPulseEnd => exact outMeets_ite (fun _ => h) h
  | laneReleaseEnd => exact outMeets_ite (fun _ => laneEnd_queueOrdered h) h
  | disposeClear r => exact outMeets_ite (fun _ => panelClear_queueOrdered r h) h
  | arrivalTimeout i => exact outMeets_ite (fun _ => finishMissing_queueOrdered i h) h
  | callTimeout => exact outMeets_ite (fun _ => callExpiry_queueOrdered h) h
  | recordLineSent cts =>
    exact outMeets_ite (fun _ => ite_queueOrdered (lineSent_queueOrdered (s := s.withPorts _) h) h) h
  | _ => exact absurd own Bool.false_ne_true

end
end Sys2Proof.Machine
end

section
/-! The intake unit, the messages, the line and the resets keep the transmit queue in order (R46); with them every command
does. -/

namespace Sys2Proof.Machine

section
variable {s : State}

/-! ### The intake unit -/

theorem reply_queueOrdered (r : Reply) (h : QueueOrdered s) : QueueOrdered (reply r s) := ite_queueOrdered h h

/-- A terminal line keeps the order when what takes its entry does. -/
theorem checkedLine_queueOrdered (l : PortLine) (form : List Text → Bool) {act : List Text → State → State}
    (acted : ∀ args u, QueueOrdered u → QueueOrdered (act args u)) (h : QueueOrdered s) :
    QueueOrdered (terminalLine l (entryChecks form act) s) := by
  have held : QueueOrdered (s.withPorts { s.ports with lineB := assembleLine Config.portBCap l }) := h
  exact ite_queueOrdered (ite_queueOrdered (ite_queueOrdered (reply_queueOrdered _ held)
    (ite_queueOrdered (reply_queueOrdered _ held) (acted _ _ held))) h) h

theorem takePeriod_queueOrdered (args : List Text) (h : QueueOrdered s) : QueueOrdered (takePeriod args s) :=
  ite_queueOrdered (reply_queueOrdered _ (s := s.withIeu _) h) (reply_queueOrdered _ h)

theorem takeMass_queueOrdered (args : List Text) (h : QueueOrdered s) : QueueOrdered (takeMass args s) := by
  unfold takeMass
  split
  · exact reply_queueOrdered _ h
  · exact reply_queueOrdered _ (s := s.withIeu _) h

theorem takeFind_queueOrdered (args : List Text) (h : QueueOrdered s) : QueueOrdered (takeFind args s) := by
  unfold takeFind
  split
  · exact reply_queueOrdered _ h
  · split
    · exact reply_queueOrdered _ h
    · exact ite_queueOrdered (reply_queueOrdered _ h) (reply_queueOrdered _ (s := s.withIeu _) h)

theorem takeCancel_queueOrdered (args : List Text) (h : QueueOrdered s) : QueueOrdered (takeCancel args s) :=
  ite_queueOrdered
    (reply_queueOrdered _ (s := State.withIeu _ _) (ite_queueOrdered (reply_queueOrdered .errCancelled h) h))
    (reply_queueOrdered _ h)

theorem takeClear_queueOrdered (args : List Text) (h : QueueOrdered s) : QueueOrdered (takeClear args s) :=
  ite_queueOrdered (reply_queueOrdered _ (s := s.withIeu _) h) (reply_queueOrdered _ h)

theorem readerRead_queueOrdered (l : PortLine) (h : QueueOrdered s) : QueueOrdered (readerRead l s) := by
  refine ite_queueOrdered (ite_queueOrdered ?_ (reply_queueOrdered _ (s := s.withPorts _) h)) h
  unfold takeReader
  split
  · exact reply_queueOrdered _ (s := s.withPorts _) h
  · exact reply_queueOrdered _ (s := State.withIeu _ _) h

theorem tryJoin_queueOrdered (h : QueueOrdered s) : QueueOrdered (tryJoin s) := by
  unfold tryJoin
  split
  · exact ite_queueOrdered (reply_queueOrdered _ (s := s.withIeu _) h) h
  · exact h

theorem takeClose_queueOrdered (args : List Text) (h : QueueOrdered s) : QueueOrdered (takeClose args s) := by
  unfold takeClose
  split
  · exact reply_queueOrdered _ h
  · split
    · split
      · exact ite_queueOrdered (reply_queueOrdered _ h) (tryJoin_queueOrdered (s := evaluate _ _ _ s) h)
      · exact reply_queueOrdered _ h
    · exact h

/-- The commands of the intake unit keep the order. -/
theorem intakeCommand_queueOrdered (h : QueueOrdered s) (i : Instr) (own : intakeCommand i = true) :
    OutMeets QueueOrdered (exec i s) := by
  cases i with
  | infeedClear => exact outMeets_ite (fun _ => h) h
  | readerLine l => exact outMeets_ite (fun _ => readerRead_queueOrdered l h) h
  | period l => exact outMeets_next (checkedLine_queueOrdered l _ (fun a _ hu => takePeriod_queueOrdered a hu) h)
  | mass l => exact outMeets_next (checkedLine_queueOrdered l _ (fun a _ hu => takeMass_queueOrdered a hu) h)
  | find l => exact outMeets_next (checkedLine_queueOrdered l _ (fun a _ hu => takeFind_queueOrdered a hu) h)
  | close l => exact outMeets_next (checkedLine_queueOrdered l _ (fun a _ hu => takeClose_queueOrdered a hu) h)
  | cancel l => exact outMeets_next (checkedLine_queueOrdered l _ (fun a _ hu => takeCancel_queueOrdered a hu) h)
  | clearEntry l => exact outMeets_next (checkedLine_queueOrdered l _ (fun a _ hu => takeClear_queueOrdered a hu) h)
  | unknownKeyword l => exact outMeets_next (checkedLine_queueOrdered l _ (fun _ _ hu => hu) h)
  | docketJoin => exact outMeets_ite (fun _ => tryJoin_queueOrdered h) h
  | pulseEnd c =>
    show OutMeets _ (execPulseEnd c s)
    unfold execPulseEnd
    split
    · cases c <;> exact outMeets_next h
    · exact outMeets_next h
  | terminalReplySent =>
    show OutMeets _ (execTerminalReplySent s)
    unfold execTerminalReplySent
    split <;> exact outMeets_next h
  | _ => exact absurd own Bool.false_ne_true

theorem intakeStop_queueOrdered (h : QueueOrdered s) : QueueOrdered (intakeStop s) :=
  withdrawMsg_queueOrdered _ (s := s.withIeu _) h

theorem offerDecision_queueOrdered (h : QueueOrdered s) : QueueOrdered (offerDecision s) := by
  have withdrawn := withdrawMsg_queueOrdered .docketOffer h
  unfold offerDecision
  split
  · exact h
  · exact ite_queueOrdered (ite_queueOrdered withdrawn (ite_queueOrdered (queueMsg_queueOrdered _ h) h))
      (ite_queueOrdered withdrawn withdrawn)

theorem directDecision_queueOrdered (h : QueueOrdered s) : QueueOrdered (directDecision s) := by
  unfold directDecision
  split
  · exact ite_queueOrdered (queueMsg_queueOrdered _ h) h
  · exact h

/-! ### Messages -/

/-- The front message keeps its kind when it contends (R39). -/
theorem markFront_inKeyOrder {q : List TxMsg} (h : InKeyOrder q) : InKeyOrder (markFront q) := by
  cases q with
  | nil => exact h
  | cons m rest =>
    obtain ⟨front, others⟩ := List.pairwise_cons.mp h
    exact List.pairwise_cons.mpr ⟨front, others⟩

theorem contend_queueOrdered (k : Key) (h : QueueOrdered s) : QueueOrdered (contend k s) :=
  ite_queueOrdered (markFront_inKeyOrder h) (markFront_inKeyOrder h)

theorem unaccepted_queueOrdered (m : TxMsg) (h : QueueOrdered s) : QueueOrdered (unaccepted m s) := by
  have counted := countUnaccepted_queueOrdered h
  unfold unaccepted unacceptedEffect
  split <;> exact counted

theorem execMessageSend_queueOrdered (read : List Byte) (h : QueueOrdered s) :
    OutMeets QueueOrdered (execMessageSend read s) := by
  unfold execMessageSend
  split
  · exact outMeets_ite (fun _ => ite_queueOrdered (removeContender_queueOrdered (s := withRound _ s) h)
      (ite_queueOrdered (unaccepted_queueOrdered _ (s := withRound _ s) h) h)) h
  · exact outMeets_next h

theorem returnTaken_queueOrdered (h : QueueOrdered s) : QueueOrdered (returnTaken s) :=
  ite_queueOrdered (ite_queueOrdered (h.of_outsideHead (enterIdle_outsideHead _)) h) (ite_queueOrdered h h)

theorem readAccept_queueOrdered (read : Byte) (m : TxMsg) (h : QueueOrdered s) :
    QueueOrdered (readAccept read m s) := by
  have left := removeContender_queueOrdered h
  unfold readAccept
  split
  · unfold acceptedEffect
    cases m.kind with
    | docketReturn => exact returnTaken_queueOrdered left
    | _ => exact left
  · exact unaccepted_queueOrdered m h

theorem execAcceptFieldRead_queueOrdered (read : Byte) (h : QueueOrdered s) :
    OutMeets QueueOrdered (execAcceptFieldRead read s) := by
  unfold execAcceptFieldRead
  split
  · exact outMeets_ite (fun _ => readAccept_queueOrdered read _ h) h
  · exact outMeets_next h

theorem dropMessage_queueOrdered (h : QueueOrdered s) : QueueOrdered (dropMessage s) := by
  unfold dropMessage
  split
  · rename_i m _
    have left : QueueOrdered (s.withTxq (s.txq.eraseP TxMsg.exhausted)) := InKeyOrder.sublist h List.eraseP_sublist
    cases m.kind with
    | docketReturn => exact ite_queueOrdered left (ite_queueOrdered left left)
    | _ => exact left
  · exact h

/-- A received frame keeps the order when what takes it does. -/
theorem receive_queueOrdered (k : MsgKind) (f : Frame) {take : State → State}
    (keeps : ∀ u, QueueOrdered u → QueueOrdered (take u)) (h : QueueOrdered s) : QueueOrdered (receive k f take s) :=
  ite_queueOrdered (ite_queueOrdered h (ite_queueOrdered (keeps _ h) h)) h

theorem offerFor_queueOrdered (f : Frame) (read : Byte) (h : QueueOrdered s) : QueueOrdered (offerFor f read s) := by
  unfold offerFor
  refine ite_queueOrdered ?_ h
  split
  · exact ite_queueOrdered (ite_queueOrdered h h) h
  · exact h

theorem enterUnloading_queueOrdered (h : QueueOrdered s) : QueueOrdered (enterUnloading s) :=
  h.of_outsideHead (enterUnloading_outsideHead s)

theorem takeCall_queueOrdered (a : Addr) (h : QueueOrdered s) : QueueOrdered (takeCall a s) :=
  enterUnloading_queueOrdered (queueMsg_queueOrdered _ (s := s.withTsq _) h)

theorem callFor_queueOrdered (f : Frame) (read : Byte) (h : QueueOrdered s) : QueueOrdered (callFor f read s) :=
  ite_queueOrdered (ite_queueOrdered (takeCall_queueOrdered _ (s := withRound _ s) h) h) h

theorem directFor_queueOrdered (f : Frame) (read : Byte) (h : QueueOrdered s) : QueueOrdered (directFor f read s) := by
  unfold directFor
  refine ite_queueOrdered ?_ h
  split
  · exact ite_queueOrdered (ite_queueOrdered h h) h
  · exact h

theorem returnFor_queueOrdered (f : Frame) (read : Byte) (h : QueueOrdered s) : QueueOrdered (returnFor f read s) := by
  unfold returnFor
  refine ite_queueOrdered ?_ h
  split
  · exact ite_queueOrdered (ite_queueOrdered (returnAccepted_queueOrdered _ (s := withRound _ s) h) h) h
  · exact h

theorem cardFor_queueOrdered (f : Frame) (h : QueueOrdered s) : QueueOrdered (cardFor f s) := by
  unfold cardFor
  refine ite_queueOrdered ?_ h
  split
  · exact refreshShare_queueOrdered (s := withRound _ _) h
  · exact h

theorem noteFor_queueOrdered (f : Frame) (h : QueueOrdered s) : QueueOrdered (noteFor f s) := by
  unfold noteFor
  refine ite_queueOrdered ?_ h
  split <;> exact h

/-! ### The line and the end of a complete round -/

/-- A conflict of addresses empties the queue (R37). -/
theorem execPost_queueOrdered (read : PostWord) (h : QueueOrdered s) : OutMeets QueueOrdered (execPost read s) := by
  unfold execPost
  split
  · exact outMeets_ite (fun _ => ite_queueOrdered h List.Pairwise.nil) h
  · exact outMeets_next h

theorem raise_openTick_queueOrdered (cs : List Cause) (o : TickOrder) (h : QueueOrdered s) :
    QueueOrdered (raise cs (openTick o s)) :=
  h.of_outsideHead ((raise_outsideHead _ _).trans (openTick_outsideHead o s))

theorem silenceExpiry_queueOrdered (o : TickOrder) (h : QueueOrdered s) : QueueOrdered (silenceExpiry o s) :=
  ite_queueOrdered (raise_openTick_queueOrdered _ o (s := s.withLif _) h) h

theorem cardStep_queueOrdered (r : Role) (old : List PvtEntry) (h : QueueOrdered s) :
    QueueOrdered (cardStep r old s) :=
  ite_queueOrdered (queueCard_queueOrdered r (s := State.withLif _ _) h)
    (ite_queueOrdered (queueCard_queueOrdered r h) h)

/-- A conflict of roles empties the queue (R38). -/
theorem conflictStep_queueOrdered (r : Role) (h : QueueOrdered s) : QueueOrdered (conflictStep r s) := by
  refine ite_queueOrdered ?_ h
  cases r <;> exact List.Pairwise.nil

theorem waitStep_queueOrdered (h : QueueOrdered s) : QueueOrdered (waitStep s) :=
  InKeyOrder.map h _ fun m => by split <;> rfl

theorem ageStep_queueOrdered (h : QueueOrdered s) : QueueOrdered (ageStep s) := by
  unfold ageStep
  split <;> exact h

theorem cardRecord_queueOrdered (h : QueueOrdered s) : QueueOrdered (cardRecord s) := by
  unfold cardRecord
  split
  · split
    · exact produceLine_queueOrdered _ h
    · exact h
  · exact h

theorem roleStep_queueOrdered (r : Role) (h : QueueOrdered s) : QueueOrdered (roleStep r s) := by
  refine ite_queueOrdered h ?_
  cases r with
  | inspect => exact directDecision_queueOrdered (offerDecision_queueOrdered h)
  | test => exact ite_queueOrdered h h
  | dispose => exact callDecision_queueOrdered (cardRecord_queueOrdered h)

theorem completeRound_queueOrdered (r : Role) (w : PostWord) (posts : List PostWord) (cell263 : Bool)
    (h : QueueOrdered s) : QueueOrdered (completeRound r w posts cell263 s) := by
  have tabled : QueueOrdered (roundTabled w posts cell263 s) := dropMessage_queueOrdered h
  have checked := conflictStep_queueOrdered r (cardStep_queueOrdered r s.pvt tabled)
  have counted : QueueOrdered (roundCounted r w posts cell263 s) :=
    refreshShare_queueOrdered (ageStep_queueOrdered (waitStep_queueOrdered checked))
  exact endRound_queueOrdered (roleStep_queueOrdered r counted)

theorem execRoundEnd_queueOrdered (posts : List PostWord) (cell263 : Bool) (h : QueueOrdered s) :
    OutMeets QueueOrdered (execRoundEnd posts cell263 s) := by
  unfold execRoundEnd
  split
  · exact outMeets_ite (fun _ => completeRound_queueOrdered _ _ _ _ h) h
  · exact outMeets_next h

/-! ### Ticks, stops, resets and the release -/

theorem execSampleTick_queueOrdered (p : Pins) (x : Sample) (h : QueueOrdered s) :
    OutMeets QueueOrdered (execSampleTick p x s) := by
  unfold execSampleTick
  split
  · exact outMeets_next (h.of_outsideHead (headSample_outsideHead p x s))
  · exact outMeets_next h
  · exact outMeets_next h
  · exact outMeets_next h

theorem execStopReported_queueOrdered (h : QueueOrdered s) : OutMeets QueueOrdered (execStopReported s) := by
  have acted (r : Role) : QueueOrdered (stopReported r s) := by
    refine ite_queueOrdered h ?_
    cases r with
    | inspect => exact intakeStop_queueOrdered (s := State.withIlk _ _) h
    | test => exact h
    | dispose => exact disposeStop_queueOrdered (s := State.withIlk _ _) h
  unfold execStopReported
  split
  · exact outMeets_next h
  · exact outMeets_ite (fun _ => h) (acted _)
  · exact outMeets_next h

theorem execStopEnded_queueOrdered (h : QueueOrdered s) : OutMeets QueueOrdered (execStopEnded s) := by
  have acted (r : Role) : QueueOrdered (stopEnded r s) := by
    refine ite_queueOrdered h ?_
    cases r with
    | inspect => exact ite_queueOrdered h h
    | test => exact h
    | dispose => exact disposeResume_queueOrdered (s := State.withIlk _ _) h
  unfold execStopEnded
  split
  · exact outMeets_next h
  · exact outMeets_ite (fun _ => acted _) h
  · exact outMeets_next h

/-- The queue is empty after a reset (R46). -/
theorem resetState_queueOrdered (c : ResetCause) (s : State) : QueueOrdered (resetState c s) := List.Pairwise.nil

theorem startRole_queueOrdered (r : Role) (seat infeedClear : Bool) (h : QueueOrdered s) :
    QueueOrdered (startRole r seat infeedClear s) := by
  cases r with
  | inspect => exact ite_queueOrdered h h
  | test => exact (show QueueOrdered (State.withAdm _ _) from h).of_outsideHead (enterIdle_outsideHead _)
  | dispose => exact h

theorem checkImage_queueOrdered (r : Role) (im : List Byte) (seat infeedClear : Bool) (h : QueueOrdered s) :
    QueueOrdered (checkImage r im seat infeedClear s) := by
  refine ite_queueOrdered h ?_
  split
  · exact h
  · exact startRole_queueOrdered r seat infeedClear (s := releaseLine _) h

theorem execProfileReadComplete_queueOrdered (im : List Byte) (seat infeedClear : Bool) (h : QueueOrdered s) :
    OutMeets QueueOrdered (execProfileReadComplete im seat infeedClear s) := by
  unfold execProfileReadComplete
  split
  · exact outMeets_next (ite_queueOrdered h (ite_queueOrdered h (ite_queueOrdered h (ite_queueOrdered
      (checkImage_queueOrdered _ _ _ _ (s := State.withLoader _ _) h) (ite_queueOrdered h h)))))
  · exact outMeets_next h

/-! ### The commands -/

/-- Every command keeps the transmit queue in order. -/
theorem exec_queueOrdered (i : Instr) (h : QueueOrdered s) : OutMeets QueueOrdered (exec i s) := by
  cases i with
  | powerOnReset => exact outMeets_next (resetState_queueOrdered _ s)
  | pinReset => exact outMeets_ite (fun _ => h) (resetState_queueOrdered .pin s)
  | resetRelease a r high => exact outMeets_ite (fun _ => ite_queueOrdered h h) h
  | profileReadComplete im seat infeedClear => exact execProfileReadComplete_queueOrdered im seat infeedClear h
  | idleSpan cells => exact outMeets_ite (fun _ => h) h
  | callMade read => exact outMeets_ite (fun _ => ite_queueOrdered h h) h
  | callJoined read => exact outMeets_ite (fun _ => ite_queueOrdered h h) h
  | post read => exact execPost_queueOrdered read h
  | incompleteRoundEnd => exact outMeets_ite (fun _ => h) h
  | contention read => exact outMeets_ite (fun _ => contend_queueOrdered read h) h
  | messageSend read => exact execMessageSend_queueOrdered read h
  | acceptFieldRead read => exact execAcceptFieldRead_queueOrdered read h
  | messageDropped => exact outMeets_next (dropMessage_queueOrdered h)
  | docketOffer f read => exact outMeets_next (receive_queueOrdered _ f (fun _ hu => offerFor_queueOrdered f read hu) h)
  | releaseCall f read => exact outMeets_next (receive_queueOrdered _ f (fun _ hu => callFor_queueOrdered f read hu) h)
  | docketDirect f read => exact outMeets_next (receive_queueOrdered _ f (fun _ hu => directFor_queueOrdered f read hu) h)
  | docketReturn f read => exact outMeets_next (receive_queueOrdered _ f (fun _ hu => returnFor_queueOrdered f read hu) h)
  | stationCard f => exact outMeets_next (receive_queueOrdered _ f (fun _ hu => cardFor_queueOrdered f hu) h)
  | verdictNote f => exact outMeets_next (receive_queueOrdered _ f (fun _ hu => noteFor_queueOrdered f hu) h)
  | roundEnd posts cell263 => exact execRoundEnd_queueOrdered posts cell263 h
  | pacingExpiry => exact outMeets_next h
  | keepAliveExpiry => exact outMeets_next h
  | silenceExpiry o => exact outMeets_ite (fun _ => silenceExpiry_queueOrdered o h) h
  | sampleTick pins x => exact execSampleTick_queueOrdered pins x h
  | stopReported => exact execStopReported_queueOrdered h
  | stopEnded => exact execStopEnded_queueOrdered h
  | lampRepeat => exact outMeets_ite (fun _ => h) h
  | responseComplete | estop | psw | abort | lidOpen | seatActive | lidClosed | fillComplete | loadTimeout | fillTimeout
  | rampTimeout | holdTimerExpiry | drainTimerExpiry | urgentFlagSet | unloadComplete | unloadTimeout | clearEdge =>
    exact (headEvent_frame s _ rfl).mono fun _ => h.of_outsideHead
  | infeedClear | readerLine | period | mass | find | close | cancel | clearEntry | unknownKeyword | docketJoin | pulseEnd
  | terminalReplySent => exact intakeCommand_queueOrdered h _ rfl
  | markReaderLine | linkClear | linkLoad | linkQuery | linkStrike | strikeTimeout | punchDone | punchTimeout
  | punchPulseEnd | laneReleaseEnd | disposeClear | arrivalTimeout | callTimeout | recordLineSent =>
    exact disposalCommand_queueOrdered h _ rfl

end

/-- Settles O6: a message enters the queue at its place, and messages leave it or are marked in it, so every command, and
with it the step, keeps the order. -/
theorem queueOrderKept : Obligations.QueueOrderKept :=
  fun _ _ h ran => step_meets (fun _ _ hu => hu) (fun i _ hu => exec_queueOrdered i hu) h ran

end Sys2Proof.Machine
end

section
/-! The key of a message and the queue's order of kinds (R40, R46): the cells of a key as parts of its number, the kind that
a receiver reads in it, and the two statements about them. -/

namespace Sys2Proof.Machine

/-! ### The cells of a key -/

theorem toNat_append_eq {n m : Nat} (x : BitVec n) (y : BitVec m) : (x ++ y).toNat = x.toNat * 2 ^ m + y.toNat := by
  rw [BitVec.toNat_append, ← Nat.shiftLeft_add_eq_or_of_lt y.isLt, Nat.shiftLeft_eq]

theorem toNat_extract_eq {n : Nat} (x : BitVec n) (start len : Nat) :
    (x.extractLsb' start len).toNat = x.toNat / 2 ^ start % 2 ^ len := by
  rw [BitVec.extractLsb'_toNat, Nat.shiftRight_eq_div_pow]

theorem MsgKind.ofCode_code (k : MsgKind) : MsgKind.ofCode k.code = some k := by cases k <;> rfl

theorem MsgKind.code_range (k : MsgKind) : 1 ≤ k.code ∧ k.code ≤ 6 := by cases k <;> decide

theorem MsgKind.code_ofCode {n : Nat} {k : MsgKind} (h : MsgKind.ofCode n = some k) : k.code = n := by
  unfold MsgKind.ofCode at h
  split at h <;> cases h <;> rfl

/-- The codes 0 and 7 of a three-bit cell name no kind (Table 3-1). -/
theorem MsgKind.ofCode_none {n : Nat} (small : n < 8) : MsgKind.ofCode n = none ↔ n = 0 ∨ n = 7 := by
  constructor
  · intro h
    by_contra named
    have range : ∀ m, 1 ≤ m → m ≤ 6 → MsgKind.ofCode m ≠ none := by
      intro m low high
      interval_cases m <;> simp [MsgKind.ofCode]
    exact range n (by omega) (by omega) h
  · rintro (rfl | rfl) <;> rfl

theorem MsgKind.urgencyCell_eq (k : MsgKind) :
    k.urgencyCell = if k = .docketReturn ∨ k = .releaseCall then 0 else 1 := by
  cases k <;> rfl

/-- The number of a key is its urgency cell, its kind, 15 minus the wait count and the sender's address (R40). -/
theorem msgKey_toNat (a : Addr) (m : TxMsg) (waited : m.wait ≤ 15) :
    (msgKey a m).toNat = 2048 * m.kind.urgencyCell + 256 * m.kind.code + 16 * (15 - m.wait) + a.toNat := by
  have code := m.kind.code_range
  have cell : m.kind.urgencyCell ≤ 1 := by
    unfold MsgKind.urgencyCell
    split <;> decide
  simp only [msgKey, toNat_append_eq, BitVec.toNat_ofNat]
  omega

/-- The kind read in a key: the one its three cells name, when the urgency cell is that kind's (R40). -/
theorem keyKind_iff (k : Key) (kind : MsgKind) :
    keyKind k = some kind ↔ kind.code = k.toNat / 256 % 8 ∧ kind.urgencyCell = k.toNat / 2048 % 2 := by
  have code := toNat_extract_eq k 8 3
  have cell := toNat_extract_eq k 11 1
  unfold keyKind
  rw [code, cell]
  constructor
  · intro h
    split at h
    · rename_i named isKind
      split at h
      · rename_i same
        cases h
        exact ⟨MsgKind.code_ofCode isKind, (beq_iff_eq.mp same).symm⟩
      · cases h
    · cases h
  · rintro ⟨isCode, isCell⟩
    rw [show k.toNat / 2 ^ 8 % 2 ^ 3 = kind.code from isCode.symm, MsgKind.ofCode_code]
    exact if_pos (beq_iff_eq.mpr isCell.symm)

/-- Every kind has the urgency cell 0 up to code 2 and 1 above it (R40). -/
theorem MsgKind.urgencyCell_code (k : MsgKind) : k.urgencyCell = if k.code ≤ 2 then 0 else 1 := rfl

/-- A key names no kind when its code is 0 or 7, or its urgency cell is not the kind's (R40). -/
theorem keyKind_none (k : Key) :
    keyKind k = none ↔
      k.extractLsb' 8 3 = 0 ∨ k.extractLsb' 8 3 = 7 ∨ ((k.extractLsb' 8 3).toNat ≤ 2 ↔ k.getLsbD 11 = true) := by
  have bit : k.getLsbD 11 = true ↔ k.toNat / 2048 % 2 = 1 := by
    rw [BitVec.getLsbD, Nat.testBit_eq_decide_div_mod_eq, decide_eq_true_iff]
  have code := toNat_extract_eq k 8 3
  have named (n : BitVec 3) : k.extractLsb' 8 3 = n ↔ k.toNat / 256 % 8 = n.toNat := by
    rw [← BitVec.toNat_inj, code]
    exact Iff.rfl
  rw [named, named, code, bit]
  show _ ↔ k.toNat / 256 % 8 = 0 ∨ k.toNat / 256 % 8 = 7 ∨ (k.toNat / 256 % 8 ≤ 2 ↔ _)
  cases isKind : MsgKind.ofCode (k.toNat / 256 % 8) with
  | none =>
    have none' : keyKind k = none := by
      unfold keyKind
      rw [code]
      simp [isKind]
    have := (MsgKind.ofCode_none (Nat.mod_lt _ (by decide))).mp isKind
    exact ⟨fun _ => by omega, fun _ => none'⟩
  | some kind =>
    have isCode := MsgKind.code_ofCode isKind
    have range := kind.code_range
    have cell := kind.urgencyCell_code
    have taken := keyKind_iff k
    rw [Option.eq_none_iff_forall_ne_some]
    constructor
    · intro none'
      have other : ¬ kind.urgencyCell = k.toNat / 2048 % 2 := fun same => none' kind ((taken kind).mpr ⟨isCode, same⟩)
      split at cell <;> omega
    · intro wrong x isX
      obtain ⟨xCode, xCell⟩ := (taken x).mp isX
      have same := x.urgencyCell_code
      split at same <;> omega

/-- Settles O23: the number of the key, cell by cell, and the kinds that its code and urgency cells name. -/
theorem contentionKeyFields : Obligations.ContentionKeyFields := by
  refine ⟨fun a m waited => ?_, rfl, keyKind_none⟩
  have number := msgKey_toNat a m waited
  have code := m.kind.code_range
  have cell : m.kind.urgencyCell ≤ 1 := by
    rw [MsgKind.urgencyCell_code]
    split <;> decide
  have small := a.isLt
  refine ⟨?_, ?_, (keyKind_iff _ _).mpr ⟨by omega, by omega⟩⟩
  · rw [number, MsgKind.urgencyCell_eq]
    split <;> omega
  · apply BitVec.eq_of_toNat_eq
    rw [keyAddr, toNat_extract_eq, number]
    omega

/-! ### The queue's order of kinds -/

/-- Kinds sort by urgency and then by code (R46). -/
theorem MsgKind.order_lt_iff (x y : MsgKind) :
    x.order < y.order ↔ x.urgencyCell < y.urgencyCell ∨ (x.urgencyCell = y.urgencyCell ∧ x.code < y.code) := by
  have hx := x.code_range
  have hy := y.code_range
  unfold MsgKind.order
  omega

/-- Settles O29: the place of a new message, by induction on the queue, and the rule for a full queue (R38, R46). -/
theorem queueInsertion : Obligations.QueueInsertion :=
  ⟨insertMsg_eq, MsgKind.order_lt_iff, queueMsg_taken, queueMsg_dropped⟩

end Sys2Proof.Machine
end

section
/-! The sender of a message (R39 to R41, R45, R47): the contention, the frame, the accept field. -/

namespace Sys2Proof.Machine

/-! ### The contention -/

/-- The window is the station's when no cell that it wrote as 1 reads 0 (R39). -/
theorem notOverruled_iff (k read : Key) :
    (k &&& ~~~read == 0) = true ↔ ∀ i < 12, ¬ (k.getLsbD i = true ∧ read.getLsbD i = false) := by
  rw [beq_iff_eq]
  constructor
  · intro none' i hi ⟨one, zero⟩
    have bit : (k &&& ~~~read).getLsbD i = false := by rw [none']; exact BitVec.getLsbD_zero
    rw [BitVec.getLsbD_and, BitVec.getLsbD_not, one, zero] at bit
    simp [hi] at bit
  · intro kept
    apply BitVec.eq_of_getLsbD_eq
    intro i hi
    have := kept i hi
    cases one : k.getLsbD i <;> cases zero : read.getLsbD i <;> simp_all

theorem keyIgnored_iff (read : Key) :
    keyIgnored read = true ↔ read ≠ BitVec.allOnes 12 ∧ keyKind read = none := by
  simp [keyIgnored]

theorem beforeWindow_iff (s : State) : s.beforeWindow = true ↔
    s.lif.state = .inRound ∧ s.lif.round.posted.isSome = true ∧ s.lif.round.stage = .posts := by
  simp [State.beforeWindow, and_assoc]

/-- The round once the station has written and read the key cells (R39). -/
def contended (sent : Option Key) (won : Bool) (read : Key) (s : State) : Lif :=
  { s.lif with round := { s.lif.round with
    stage := .window, closeZero := some (s.lif.round.closeZero.getD s.wantsPaced), keySent := sent, key := some read
    won := won } }

/-- A station with nothing to send writes no key (R39). -/
theorem contend_empty (read : Key) (s : State) (none' : s.txq = []) :
    contend read s =
      if keyIgnored read then leaveWindow { s with lif := contended none false read s }
      else { s with lif := contended none false read s } := by
  have same : s.withTxq [] = s := by rw [← none']; rfl
  have round : (s.withLif (contended none false read s)).withTxq [] = { s with lif := contended none false read s } :=
    congrArg (State.withLif · (contended none false read s)) same
  have only : contend read s = if keyIgnored read && !false then
      leaveWindow ((s.withLif (contended none false read s)).withTxq [])
      else (s.withLif (contended none false read s)).withTxq [] := by
    unfold contend
    rw [none']
    rfl
  rw [only, round, Bool.not_false, Bool.and_true]

/-- The front message contends with its key (R39). -/
theorem contend_front (read : Key) (m : TxMsg) (rest : List TxMsg) (s : State) (queue : s.txq = m :: rest) (won : Bool)
    (outcome : (msgKey s.ownAddr m &&& ~~~read == 0) = won) :
    let t : State := { s with
      lif := contended (some (msgKey s.ownAddr m)) won read s, txq := { m with contending := true } :: rest }
    contend read s = if keyIgnored read && !won then leaveWindow t else t := by
  subst outcome
  unfold contend
  rw [queue]
  rfl

theorem execContention_before (read : Key) (s : State) (h : s.beforeWindow = true) :
    exec (.contention read) s = .next (contend read s) := if_pos h

/-- Settles O24: with no message the key is read alone; else the window is won, lost or left. -/
theorem contentionOutcome : Obligations.ContentionOutcome := by
  intro read s inRound posted posts
  have ran := execContention_before read s ((beforeWindow_iff s).mpr ⟨inRound, posted, posts⟩)
  dsimp only
  rw [ran, ← keyIgnored_iff, Bool.not_eq_true]
  refine ⟨fun none' => ?_, fun m rest queue => ?_⟩
  · rw [contend_empty read s none']
    exact ⟨fun kept => by rw [kept]; rfl, fun ignored => by rw [ignored]; rfl⟩
  · rw [← notOverruled_iff, Bool.not_eq_true]
    have front := contend_front read m rest s queue
    refine ⟨fun wins => ?_, fun loses kept => ?_, fun loses ignored => ?_⟩
    · rw [front true wins, Bool.not_true, Bool.and_false]; rfl
    · rw [front false loses, kept]; rfl
    · rw [front false loses, ignored]; rfl

/-! ### A sending that ends unaccepted -/

/-- What an unaccepted sending of each kind leaves (R47, R51, R165). -/
theorem unaccepted_other (m : TxMsg) (s : State) (kind : m.kind ≠ .docketOffer) (call : m.kind ≠ .releaseCall) :
    unaccepted m s = countUnaccepted s := by
  unfold unaccepted unacceptedEffect
  split
  · contradiction
  · contradiction
  · rfl

theorem unaccepted_offer (m : TxMsg) (s : State) (kind : m.kind = .docketOffer) :
    unaccepted m s = (countUnaccepted s).withIeu { s.ieu with stall := s.ieu.stall + 1 } := by
  rw [unaccepted, kind]
  rfl

theorem unaccepted_call (m : TxMsg) (s : State) (kind : m.kind = .releaseCall) :
    unaccepted m s = callUnaccepted (countUnaccepted s) := by
  rw [unaccepted, kind]
  rfl

/-! ### The frame -/

theorem execMessageSend_sends (read : List Byte) (m : TxMsg) (key : Key) (s : State) (contends : s.contender = some m)
    (wrote : s.lif.round.keySent = some key) (inRound : s.lif.state = .inRound) (won : s.lif.round.won = true)
    (stage : s.lif.round.stage = .window) : exec (.messageSend read) s = .next (sendFrame read m key s) := by
  show execMessageSend read s = _
  unfold execMessageSend
  rw [contends, wrote]
  simp [inRound, won, stage]

/-- The state in which the frame has been sent (R41). -/
def frameSent (f : Frame) (s : State) : State := withRound { s.lif.round with frameSent := some f } s

/-- A broadcast leaves the queue whatever is read back (R45; log 14). -/
theorem sendFrame_broadcast (read : List Byte) (m : TxMsg) (key : Key) (s : State) (broad : m.kind.directed = false) :
    sendFrame read m key s = roundStage .over (removeContender (frameSent (frameOf key m) s)) := by
  simp [sendFrame, broad, frameSent]

/-- A directed message read back as sent waits for its accept field (R45). -/
theorem sendFrame_directed (read : List Byte) (m : TxMsg) (key : Key) (s : State) (directed : m.kind.directed = true)
    (same : overruled (frameBytes (frameOf key m)) read = false) :
    sendFrame read m key s = roundStage .accept (frameSent (frameOf key m) s) := by
  simp [sendFrame, directed, same, frameSent]

/-- One overruled in some cell is abandoned, unaccepted (R41, R47). -/
theorem sendFrame_clash (read : List Byte) (m : TxMsg) (key : Key) (s : State) (directed : m.kind.directed = true)
    (clash : overruled (frameBytes (frameOf key m)) read = true) :
    sendFrame read m key s = roundStage .over (unaccepted m (frameSent (frameOf key m) s)) := by
  simp [sendFrame, directed, clash, frameSent]

/-- Settles O25: the kinds of messages, and for a directed one whether some cell was overruled. -/
theorem messageSending : Obligations.MessageSending := by
  intro read m key s contends wrote inRound won stage
  have sends := execMessageSend_sends read m key s contends wrote inRound won stage
  dsimp only
  rw [sends]
  refine ⟨fun broad => ?_, fun directed same => ?_, fun kind clash => ?_, fun kind clash => ?_, fun kind clash => ?_⟩
  · rw [sendFrame_broadcast read m key s (by rcases broad with k | k <;> rw [k] <;> rfl)]
    rfl
  · rw [sendFrame_directed read m key s directed same]
    rfl
  · rw [sendFrame_clash read m key s (by rcases kind with k | k <;> rw [k] <;> rfl) clash,
      unaccepted_other m _ (by rcases kind with k | k <;> rw [k] <;> decide)
        (by rcases kind with k | k <;> rw [k] <;> decide)]
    rfl
  · rw [sendFrame_clash read m key s (by rw [kind]; rfl) clash, unaccepted_offer m _ kind]
    rfl
  · rw [sendFrame_clash read m key s (by rw [kind]; rfl) clash, unaccepted_call m _ kind]
    rfl

/-! ### The accept field -/

theorem byte_eq_append_iff (b : Byte) (high low : BitVec 4) :
    b = high ++ low ↔ b.extractLsb' 4 4 = high ∧ b.extractLsb' 0 4 = low := by
  rw [← BitVec.toNat_inj, ← BitVec.toNat_inj, ← BitVec.toNat_inj, toNat_append_eq, toNat_extract_eq, toNat_extract_eq]
  have hb := b.isLt
  have hh := high.isLt
  have hl := low.isLt
  omega

/-- A pair is valid when its last four cells are the complement of the first, the acceptor's address (R44, R45). -/
theorem acceptPair_iff (b : Byte) (a : Addr) : acceptPair b = some a ↔ b = a ++ ~~~a := by
  rw [byte_eq_append_iff]
  unfold acceptPair
  dsimp only
  split
  · rename_i pair
    rw [beq_iff_eq] at pair
    constructor
    · rintro ⟨⟩
      exact ⟨rfl, pair⟩
    · rintro ⟨rfl, -⟩
      rfl
  · rename_i noPair
    refine ⟨fun no => (nomatch no), ?_⟩
    rintro ⟨rfl, pair⟩
    exact absurd (beq_iff_eq.mpr pair) noPair

/-- Two stations that write it give no valid pair: the wired AND of two addresses is not the complement of that of their
complements (R44). -/
theorem acceptPair_two (a b : Addr) (ne : a ≠ b) : acceptPair ((a ++ ~~~a) &&& (b ++ ~~~b)) = none := by
  revert a b
  decide

theorem execAcceptFieldRead_reads (read : Byte) (m : TxMsg) (s : State) (contends : s.contender = some m)
    (inRound : s.lif.state = .inRound) (won : s.lif.round.won = true) (stage : s.lif.round.stage = .accept) :
    exec (.acceptFieldRead read) s = .next (readAccept read m s) := by
  show execAcceptFieldRead read s = _
  unfold execAcceptFieldRead
  rw [contends]
  simp [inRound, won, stage]

theorem readAccept_invalid (read : Byte) (m : TxMsg) (s : State) (bad : acceptPair read = none) :
    readAccept read m s = roundStage .over (unaccepted m s) := by
  rw [readAccept, bad]

theorem readAccept_valid (read : Byte) (a : Addr) (m : TxMsg) (s : State) (good : acceptPair read = some a) :
    readAccept read m s = roundStage .over (acceptedEffect m.kind a (removeContender s)) := by
  rw [readAccept, good]

/-- Settles O26: the pairs, bit by bit, and what an invalid one leaves of each kind. -/
theorem acceptPairsAndInvalidOnes : Obligations.AcceptPairsAndInvalidOnes := by
  refine ⟨⟨acceptPair_iff, acceptPair_two, by decide⟩, fun read m s contends inRound won stage bad => ?_⟩
  have reads := execAcceptFieldRead_reads read m s contends inRound won stage
  dsimp only
  rw [reads, readAccept_invalid read m s bad]
  refine ⟨fun kind => ?_, fun kind => ?_, fun kind => ?_⟩
  · rw [unaccepted_other m s (by rcases kind with k | k <;> rw [k] <;> decide)
      (by rcases kind with k | k <;> rw [k] <;> decide)]
    rfl
  · rw [unaccepted_offer m s kind]
    rfl
  · rw [unaccepted_call m s kind]
    rfl

end Sys2Proof.Machine
end

section
/-! Custody: what a valid accept pair moves (R45, R73, R74, R103, R105, R108, R165), and what the drop of a message leaves
(R48, R49, R75, R109, R165). -/

namespace Sys2Proof.Machine

/-! ### The moves of a valid accept -/

/-- INFEED_FULL is left once nothing blocks the unit any more, READY for the direct fault (R55). -/
theorem Ieu.refresh_eq (u : Ieu) : u.refresh = { u with
    state := if u.state = .infeedFull then readyOrFull u.infeed u.directFault
      else if u.state = .ready ∧ u.directFault = true then .infeedFull else u.state } := by
  by_cases full : u.state = .infeedFull
  · rw [Ieu.refresh_full u full, if_pos full]
  · rw [if_neg full]
    by_cases raised : u.state = .ready ∧ u.directFault = true
    · obtain ⟨ready, fault⟩ := raised
      rw [if_pos ⟨ready, fault⟩, Ieu.refresh, ready]
      exact if_pos fault
    · rw [if_neg raised]
      unfold Ieu.refresh
      split
      · contradiction
      · rename_i ready
        exact if_neg fun fault => raised ⟨ready, fault⟩
      · rfl

/-- The front docket of the infeed queue leaves: the stall count returns to 0 and the unit moves on (R51, R55). -/
theorem Ieu.popInfeed_eq (u : Ieu) :
    u.popInfeed = { u with infeed := u.infeed.tail, stall := 0, state := stateAfterInfeed u } := by
  rw [Ieu.popInfeed, Ieu.refresh_eq]
  rfl

/-- A docket leaving the infeed queue neither enters nor leaves ESTOP. -/
theorem stateAfterInfeed_estop (u : Ieu) : stateAfterInfeed u = .estop ↔ u.state = .estop := by
  unfold stateAfterInfeed readyOrFull
  split
  · rename_i full
    split <;> simp [full]
  · split
    · rename_i ready
      simp [ready.1]
    · rfl

theorem Ieu.call_eq (u : Ieu) (p : Pulse) : u.call p = if u.state = .estop then .owed p else .pulsing p := by
  unfold Ieu.call
  cases u.state <;> rfl

/-- The accept of an offer (R51, R55, R73). -/
theorem offerAccepted_eq (a : Addr) (s : State) :
    offerAccepted a s = { s with ieu := { s.ieu with
      infeed := s.ieu.infeed.tail
      stall := 0
      route := a
      infeedCh := if s.ieu.state = .estop then .owed .infeedRelease else .pulsing .infeedRelease
      state := stateAfterInfeed s.ieu } } := by
  have channel : s.ieu.popInfeed.call .infeedRelease =
      if s.ieu.state = .estop then .owed .infeedRelease else .pulsing .infeedRelease := by
    rw [Ieu.call_eq, Ieu.popInfeed_eq]
    simp only [stateAfterInfeed_estop]
  show s.withIeu { s.ieu.popInfeed with route := a, infeedCh := s.ieu.popInfeed.call .infeedRelease } = _
  rw [channel, Ieu.popInfeed_eq]
  rfl

/-- The head's slot once its return is accepted: no docket, the gate flag set (R103). -/
def slotGiven (s : State) : State :=
  { s with tsq := { s.tsq with docket := none, gateFlag := true }, msu := { s.msu with limits := none } }

theorem returnTaken_eq (d : Docket) (s : State) (slot : s.tsq.docket = some d) :
    returnTaken s =
      if s.tsq.state == some .unloading then
        (if d.noCylinder then enterIdle (slotGiven s) else openGate (slotGiven s))
      else if s.tsq.state == some .safe && d.noCylinder then
        (slotGiven s).withTsq { (slotGiven s).tsq with returnState := some .idle }
      else slotGiven s := by
  unfold returnTaken
  rw [slot]
  rfl

/-- A return accepted in UNLOADING opens the gate, or, with no cylinder, ends UNLOADING (R103, R105). -/
theorem returnTaken_unloading (d : Docket) (s : State) (at' : s.tsq.state = some .unloading)
    (slot : s.tsq.docket = some d) :
    returnTaken s = if d.noCylinder then enterIdle (slotGiven s) else openGate (slotGiven s) := by
  rw [returnTaken_eq d s slot, at']
  rfl

/-- One accepted in SAFE leaves the gate to the exit (R108). -/
theorem returnTaken_safe (d : Docket) (s : State) (at' : s.tsq.state = some .safe) (slot : s.tsq.docket = some d) :
    returnTaken s = { slotGiven s with tsq := { (slotGiven s).tsq with
      returnState := if d.noCylinder then some .idle else s.tsq.returnState } } := by
  rw [returnTaken_eq d s slot, at']
  cases d.noCylinder <;> rfl

theorem returnTaken_other (s : State) (gate : s.tsq.state ≠ some .unloading) (safe : s.tsq.state ≠ some .safe) :
    returnTaken s = slotGiven s :=
  (if_neg (by simpa using gate)).trans (if_neg (by simp [safe]))

/-- An accepted call enters its return phase, its timer restarted (R165). -/
theorem callAccepted_eq (s : State) : callAccepted s = { s with dsu := { s.dsu with
    call := s.dsu.call.map fun c => { c with returnPhase := true, timer := .running } } } := by
  unfold callAccepted withCall
  cases s.dsu.call <;> rfl

/-- Settles O27: the kind of the message, and for a return the state of the head. -/
theorem validAcceptMovesCustody : Obligations.ValidAcceptMovesCustody := by
  intro read a m s contends inRound won stage good
  have reads := execAcceptFieldRead_reads read m s contends inRound won stage
  rw [readAccept_valid read a m s good] at reads
  dsimp only
  rw [reads]
  refine ⟨fun d kind at' slot there => ?_, fun d kind at' slot empty => ?_, fun d kind at' _ slot => ?_,
    fun kind gate safe => ?_, fun kind => ?_, fun kind => ?_, fun kind => ?_⟩
  · have taken := returnTaken_unloading d (removeContender s) at' slot
    rw [there] at taken
    rw [kind, acceptedEffect, taken]
    rfl
  · have taken := returnTaken_unloading d (removeContender s) at' slot
    rw [empty] at taken
    obtain ⟨frame, docket, -⟩ := enterIdle_kept (slotGiven (removeContender s))
    refine ⟨_, rfl, ?_, ?_, ?_⟩ <;> rw [kind, acceptedEffect, taken]
    · exact enterIdle_goes (slotGiven (removeContender s))
    · exact docket
    · conv_lhs => rw [if_pos rfl, frame]
      rfl
  · rw [kind, acceptedEffect, returnTaken_safe d (removeContender s) at' slot]
    rfl
  · rw [kind, acceptedEffect, returnTaken_other (removeContender s) gate safe]
    rfl
  · rw [kind, acceptedEffect, offerAccepted_eq]
    rfl
  · rw [kind, acceptedEffect, directAccepted, Ieu.call_eq]
    rfl
  · rw [kind, acceptedEffect, callAccepted_eq]
    rfl

/-! ### The drop of a message -/

theorem dropMessage_none (s : State) (none' : s.txq.find? TxMsg.exhausted = none) : dropMessage s = s := by
  rw [dropMessage, none']

theorem dropMessage_some (m : TxMsg) (s : State) (due : s.txq.find? TxMsg.exhausted = some m) :
    dropMessage s = droppedEffect m.kind (s.withTxq (s.txq.eraseP TxMsg.exhausted)) := by
  rw [dropMessage, due]

/-- The direct fault is raised, and READY is left for it (R55, R75). -/
theorem directDropped_eq (s : State) :
    directDropped s = { s with ieu := { s.ieu with
      directFault := true, state := if s.ieu.state = .ready then .infeedFull else s.ieu.state } } := by
  have state : (if s.ieu.state = .infeedFull then readyOrFull s.ieu.infeed true
      else if s.ieu.state = .ready ∧ true = true then .infeedFull else s.ieu.state) =
      if s.ieu.state = .ready then .infeedFull else s.ieu.state := by
    by_cases full : s.ieu.state = .infeedFull <;> simp [full, readyOrFull]
  rw [directDropped, Ieu.refresh_eq]
  dsimp only
  rw [state]
  rfl

/-- A call in its call phase ends (R165). -/
theorem callRefused_eq (s : State) :
    callRefused s = { s with dsu := { s.dsu with call := s.dsu.call.filter fun c => c.returnPhase } } := by
  have same : (s.dsu.call.bind fun c => if c.returnPhase then some c else none) =
      s.dsu.call.filter fun c => c.returnPhase := by
    cases s.dsu.call <;> rfl
  rw [callRefused, withCall, same]
  rfl

/-- A return dropped in UNLOADING takes the head out of service with its docket (R49, R109). -/
theorem returnDropped_unloading (s : State) (at' : s.tsq.state = some .unloading) :
    returnDropped s = enterOos .handoffFailed s := if_pos (beq_iff_eq.mpr at')

/-- One dropped during a SAFE entered from UNLOADING takes it there at the exit (R108). -/
theorem returnDropped_safe (s : State) (at' : s.tsq.state = some .safe) (back : s.tsq.returnState = some .unloading) :
    returnDropped s =
      s.withTsq { s.tsq with returnState := some .outOfService, oosCause := some .handoffFailed } :=
  (if_neg (by simp [at'])).trans (if_pos (by simp [at', back]))

theorem returnDropped_other (s : State) (gate : s.tsq.state ≠ some .unloading)
    (safe : ¬ (s.tsq.state = some .safe ∧ s.tsq.returnState = some .unloading)) : returnDropped s = s :=
  (if_neg (by simpa using gate)).trans (if_neg (by simpa using safe))

/-- Settles O28: the kind of the message dropped, and for a return the state of the head. -/
theorem fourthUnacceptedDrops : Obligations.FourthUnacceptedDrops := by
  intro m s due left
  refine ⟨fun none' => ?_, fun found => ?_⟩
  · exact congrArg Host.Outcome.next (dropMessage_none s none')
  · have drops : exec .messageDropped s = .next (droppedEffect m.kind (s.withTxq left)) :=
      congrArg Host.Outcome.next (dropMessage_some m s found)
    rw [drops]
    refine ⟨fun kind at' => ?_, fun kind at' back => ?_, fun kind gate safe => ?_, fun kind => ?_, fun kind => ?_⟩
    · rw [kind, droppedEffect, returnDropped_unloading (s.withTxq left) at']
      rfl
    · rw [kind, droppedEffect, returnDropped_safe (s.withTxq left) at' back]
      rfl
    · rw [kind, droppedEffect, returnDropped_other (s.withTxq left) gate safe]
      rfl
    · rw [kind, droppedEffect, directDropped_eq]
      rfl
    · rw [kind, droppedEffect, callRefused_eq]
      rfl

end Sys2Proof.Machine
end

section
/-! The receiver of a message (R40, R42 to R44): what stands of a frame that is heard, and what each kind's decision makes of
it (R50, R52 to R54). -/

namespace Sys2Proof.Machine

section
variable (f : Frame) (read : Byte) (s : State)

/-! ### What stands of a frame -/

/-- The line interface once a frame has been heard, with the accept field that the station drives, if any (R42, R44). -/
def heardLif (driven : Option Byte) : Lif :=
  { s.lif with
    rxBuffer := some f
    round := { s.lif.round with
      stage := .over, closeZero := some (s.lif.round.closeZero.getD s.wantsPaced), key := some f.key
      acceptDriven := driven.or s.lif.round.acceptDriven } }

theorem buffered_eq : buffered f s = { s with lif := heardLif f s none } := rfl

/-- A frame that passes its checks is heard, and its kind's decision acts on it (R42, R43). -/
theorem execDocketOffer_passed (can : s.canReceive f = true) (passed : frameChecks .docketOffer f = true) :
    exec (.docketOffer f read) s = .next (offerFor f read (buffered f s)) :=
  congrArg Host.Outcome.next (receive_passed .docketOffer f _ s can passed)

theorem execReleaseCall_passed (can : s.canReceive f = true) (passed : frameChecks .releaseCall f = true) :
    exec (.releaseCall f read) s = .next (callFor f read (buffered f s)) :=
  congrArg Host.Outcome.next (receive_passed .releaseCall f _ s can passed)

theorem execDocketDirect_passed (can : s.canReceive f = true) (passed : frameChecks .docketDirect f = true) :
    exec (.docketDirect f read) s = .next (directFor f read (buffered f s)) :=
  congrArg Host.Outcome.next (receive_passed .docketDirect f _ s can passed)

theorem execDocketReturn_passed (can : s.canReceive f = true) (passed : frameChecks .docketReturn f = true) :
    exec (.docketReturn f read) s = .next (returnFor f read (buffered f s)) :=
  congrArg Host.Outcome.next (receive_passed .docketReturn f _ s can passed)

theorem execStationCard_passed (can : s.canReceive f = true) (passed : frameChecks .stationCard f = true) :
    exec (.stationCard f) s = .next (cardFor f (buffered f s)) :=
  congrArg Host.Outcome.next (receive_passed .stationCard f _ s can passed)

theorem execVerdictNote_passed (can : s.canReceive f = true) (passed : frameChecks .verdictNote f = true) :
    exec (.verdictNote f) s = .next (noteFor f (buffered f s)) :=
  congrArg Host.Outcome.next (receive_passed .verdictNote f _ s can passed)

/-- The message is taken when the accept field reads back exactly, and only then (R44). -/
theorem writeAccept_taken (take : State → State) :
    writeAccept (acceptField s.ownAddr) take (buffered f s) =
      take { s with lif := heardLif f s (some (acceptField s.ownAddr)) } :=
  if_pos (beq_iff_eq.mpr rfl)

theorem writeAccept_mismatch (take : State → State) (other : read ≠ acceptField s.ownAddr) :
    writeAccept read take (buffered f s) = { s with lif := heardLif f s (some (acceptField s.ownAddr)) } :=
  if_neg (fun same => other (beq_iff_eq.mp same))

/-! ### An offer at a head (R50, R92) -/

variable {f s}

/-- A head in IDLE that is chosen in its own view answers an offer (R50). -/
theorem offerFor_answers {d : Docket} (head : s.role = some .test) (dest : f.dest = 0x10)
    (form : parseDocket .docketOffer (keyAddr f.key) f.body = some d) (idle : s.tsq.state = some .idle)
    (chosen : s.chosenHead d = some s.ownAddr) : offerFor f read s = writeAccept read (takeOffer d) s := by
  have isHead := (isHead_iff s).mpr head
  simp [offerFor, isHead, dest, form, idle, chosen]

/-- In another state, or with another head chosen, it does not (R50). -/
theorem offerFor_refused {d : Docket} (form : parseDocket .docketOffer (keyAddr f.key) f.body = some d)
    (other : s.tsq.state ≠ some .idle ∨ s.chosenHead d ≠ some s.ownAddr) : offerFor f read s = s := by
  unfold offerFor
  rw [form]
  rcases other with busy | other
  · simp [busy]
  · simp [other]

/-- An offer with another destination, or a body that fails its check, is not answered (R43). -/
theorem offerFor_bad (bad : f.dest ≠ 0x10 ∨ parseDocket .docketOffer (keyAddr f.key) f.body = none) :
    offerFor f read s = s := by
  unfold offerFor
  rcases bad with dest | form
  · rw [beq_eq_false_iff_ne.mpr dest]
    simp
  · simp [form]

/-! ### A release call at a head (R52, R103) -/

theorem callFor_answers (head : s.role = some .test) (dest : f.dest = 0#4 ++ s.ownAddr)
    (done : s.tsq.state = some .done) : callFor f read s = writeAccept read (takeCall (keyAddr f.key)) s := by
  have isHead := (isHead_iff s).mpr head
  simp [callFor, isHead, State.addressed, dest, done]

theorem callFor_late (other : s.tsq.state ≠ some .done) : callFor f read s = s := by
  simp [callFor, other]

theorem callFor_bad (dest : f.dest ≠ 0#4 ++ s.ownAddr) : callFor f read s = s := by
  simp [callFor, State.addressed, dest]

/-- The head takes a call: the return is queued with the docket as it stands (R52, R103). -/
theorem takeCall_eq (a : Addr) (d : Docket) (slot : s.tsq.docket = some d) (room : s.txq.length < 4)
    (free : s.lif.roleConflict = false) :
    takeCall a s = { s with
      txq := insertMsg { kind := .docketReturn, dest := 0#4 ++ a, body := docketBody .docketReturn d } s.txq
      tsq := { s.tsq with
        state := some .unloading, phase := none, caller := some a, doneUrgent := false, gateOpen := false
        lidLock := false } } := by
  unfold takeCall
  rw [slot]
  dsimp only
  rw [queueMsg_taken _ (s.withTsq { s.tsq with caller := some a }) room free]
  rfl

/-! ### Dockets at DISPOSE, cards and notes that fail a check (R43) -/

theorem directFor_bad
    (bad : f.dest ≠ 0#4 ++ s.ownAddr ∨ parseDocket .docketDirect (keyAddr f.key) f.body = none) :
    directFor f read s = s := by
  unfold directFor
  rcases bad with dest | form
  · simp [State.addressed, dest]
  · simp [form]

theorem returnFor_bad
    (bad : f.dest ≠ 0#4 ++ s.ownAddr ∨ parseDocket .docketReturn (keyAddr f.key) f.body = none) :
    returnFor f read s = s := by
  unfold returnFor
  rcases bad with dest | form
  · simp [State.addressed, dest]
  · simp [form]

theorem cardFor_bad (bad : f.dest ≠ 0xFF ∨ keyAddr f.key = s.ownAddr ∨ parseCard f.body = none) :
    cardFor f s = s := by
  unfold cardFor
  rcases bad with dest | own | form
  · rw [beq_eq_false_iff_ne.mpr dest]
    simp
  · simp [own]
  · simp [form]

theorem noteFor_bad (bad : f.dest ≠ 0xFF ∨ parseNote f.body = none) : noteFor f s = s := by
  unfold noteFor
  rcases bad with dest | form
  · rw [beq_eq_false_iff_ne.mpr dest]
    simp
  · simp [form]

/-! ### A station card (R34, R53, R114) -/

/-- The state with the card of `a` written in its entry, and the card that stood there kept for the round (R34). -/
def cardWritten (a : Addr) (c : Card) (s : State) : State :=
  withRound { s.lif.round with cardFrom := some a, cardBefore := (s.entry a).card }
    (setEntry a { s.entry a with card := some c } s)

theorem cardFor_takes {c : Card} (dest : f.dest = 0xFF) (peer : keyAddr f.key ≠ s.ownAddr)
    (form : parseCard f.body = some c) : cardFor f s = refreshShare (cardWritten (keyAddr f.key) c s) := by
  unfold cardFor
  rw [form]
  simp only [dest, beq_self_eq_true, Bool.true_and, bne_iff_ne, ne_eq, peer, not_false_eq_true, if_true]
  rfl

theorem entry_setEntry_of_ne (a b : Addr) (e : PvtEntry) (s : State) (ne : b ≠ a) :
    (setEntry a e s).entry b = s.entry b := by
  have other : a.toNat ≠ b.toNat := fun same => ne (BitVec.eq_of_toNat_eq same.symm)
  simp [State.entry, setEntry, List.getD, other]

/-- The readers of the table see no card of the round in progress (R34, R53). -/
theorem cardWritten_settledCard (a b : Addr) (c : Card) (s : State) (first : s.lif.round.cardFrom = none) :
    (cardWritten a c s).settledCard b = s.settledCard b := by
  have before : s.settledCard b = (s.entry b).card := by
    unfold State.settledCard
    rw [first]
    rfl
  rw [before]
  unfold State.settledCard
  by_cases same : a = b
  · subst same
    exact if_pos (beq_iff_eq.mpr rfl)
  · have entry : (cardWritten a c s).entry b = s.entry b := entry_setEntry_of_ne a b _ s (Ne.symm same)
    rw [entry]
    exact if_neg (fun from' => same (Option.some.inj (beq_iff_eq.mp from')))

/-- Only a head computes its share again (R114). -/
theorem refreshShare_notHead (s : State) (other : s.role ≠ some .test) : refreshShare s = s :=
  if_neg fun isHead => other ((isHead_iff s).mp isHead)

end

/-! ### The statements -/

/-- Settles O30: whether the head answers the offer, and whether its accept field reads back. -/
theorem offerTaken : Obligations.OfferTaken := by
  intro f read d s head can passed dest form
  have runs := execDocketOffer_passed f read s can passed
  dsimp only
  rw [runs]
  refine ⟨fun idle chosen mine => ?_, fun idle chosen other => ?_, fun other => ?_⟩
  · rw [offerFor_answers read (s := buffered f s) head dest form idle chosen, mine]
    exact congrArg Host.Outcome.next (writeAccept_taken f s _)
  · rw [offerFor_answers read (s := buffered f s) head dest form idle chosen]
    exact congrArg Host.Outcome.next (writeAccept_mismatch f read s _ other)
  · rw [offerFor_refused read (s := buffered f s) form other]
    rfl

/-- Settles O31: whether the head is in DONE, and whether its accept field reads back. -/
theorem callTaken : Obligations.CallTaken := by
  intro f read s head can passed dest
  have runs := execReleaseCall_passed f read s can passed
  dsimp only
  rw [runs]
  refine ⟨fun d done slot mine room free => ?_, fun done other => ?_, fun other => ?_⟩
  · rw [callFor_answers read (s := buffered f s) head dest done, mine]
    refine congrArg Host.Outcome.next ((writeAccept_taken f s _).trans ?_)
    exact takeCall_eq (s := { s with lif := heardLif f s (some (acceptField s.ownAddr)) }) _ d slot room free
  · rw [callFor_answers read (s := buffered f s) head dest done]
    exact congrArg Host.Outcome.next (writeAccept_mismatch f read s _ other)
  · rw [callFor_late read (s := buffered f s) other]
    rfl

/-- What a station leaves that takes a card (R34, R53, R114). -/
theorem cardTaken (f : Frame) (c : Card) (s : State) :
    let t := refreshShare (cardWritten (keyAddr f.key) c (buffered f s))
    t.pvt = s.pvt.set (keyAddr f.key).toNat { s.entry (keyAddr f.key) with card := some c } ∧
    t.lif.round.cardFrom = some (keyAddr f.key) ∧ t.lif.rxBuffer = some f ∧
    t.lif.round.cardBefore = (s.entry (keyAddr f.key)).card ∧
    (s.lif.round.cardFrom = none → ∀ a, t.settledCard a = s.settledCard a) ∧
    (s.role = some .test → t.adm = { s.adm with kEff := t.effectiveK, mismatch := t.lowKAddr }) ∧
    (s.role ≠ some .test → t.adm = s.adm) ∧
    t = { s with lif := t.lif, pvt := t.pvt, adm := t.adm } := by
  intro t
  obtain ⟨x, frame⟩ := refreshShare_frame (cardWritten (keyAddr f.key) c (buffered f s))
  have same : t = { cardWritten (keyAddr f.key) c (buffered f s) with adm := x } := frame
  refine ⟨by rw [same]; rfl, by rw [same]; rfl, by rw [same]; rfl, by rw [same]; rfl, fun first a => ?_, fun head => ?_,
    fun other => ?_, by rw [same]; rfl⟩
  · rw [same]
    exact cardWritten_settledCard (keyAddr f.key) a c (buffered f s) first
  · have shared : t = _ := refreshShare_head _ ((isHead_iff (cardWritten (keyAddr f.key) c (buffered f s))).mpr head)
    rw [shared]
    rfl
  · have kept : t = _ := refreshShare_notHead (cardWritten (keyAddr f.key) c (buffered f s)) other
    rw [kept]
    rfl

/-- Settles O33: a card is written, a note goes to the history of INSPECT. -/
theorem cardsAndNotesTaken : Obligations.CardsAndNotesTaken := by
  refine ⟨fun f c s can passed dest peer form => ?_, fun f n s can passed dest form => ?_⟩
  · have runs := execStationCard_passed f s can passed
    rw [cardFor_takes (s := buffered f s) dest peer form] at runs
    exact ⟨_, runs, cardTaken f c s⟩
  · refine ⟨_, execVerdictNote_passed f s can passed, ?_⟩
    by_cases acts : s.ieuActs = true
    · have taken : noteFor f (buffered f s) = takeNote n (buffered f s) := by
        unfold noteFor
        rw [form, dest]
        exact if_pos (by rw [beq_self_eq_true, Bool.and_true]; exact acts)
      have inspect : s.role = some .inspect := by
        simp only [State.ieuActs, Bool.and_eq_true, beq_iff_eq] at acts
        exact acts.1
      rw [taken]
      exact ⟨rfl, fun _ _ => rfl, fun other => absurd inspect other, rfl⟩
    · have kept : noteFor f (buffered f s) = buffered f s := by
        refine if_neg fun h => acts ?_
        exact (Bool.and_eq_true .. ▸ h).1
      rw [kept]
      refine ⟨rfl, fun inspect free => absurd ?_ acts, fun _ => rfl, rfl⟩
      simp [State.ieuActs, inspect, free]

/-- Settles O34: a cut frame, one that fails a check ahead of its body, and each kind's own checks. -/
theorem badFramesTakeNothing : Obligations.BadFramesTakeNothing := by
  intro f read s can round left heard kinds
  have receives : ∀ c k, (c, k) ∈ kinds → ∃ take, exec c s = .next (receive k f take s) := by
    intro c k mem
    simp only [kinds, List.mem_cons, List.not_mem_nil, or_false, Prod.mk.injEq] at mem
    rcases mem with ⟨rfl, rfl⟩ | ⟨rfl, rfl⟩ | ⟨rfl, rfl⟩ | ⟨rfl, rfl⟩ | ⟨rfl, rfl⟩ | ⟨rfl, rfl⟩ <;> exact ⟨_, rfl⟩
  refine ⟨fun c k mem cut => ?_, fun c k mem key short failed => ?_, fun passed bad => ?_, fun passed dest => ?_,
    fun passed bad => ?_, fun passed bad => ?_, fun passed bad => ?_, fun passed bad => ?_⟩
  · obtain ⟨take, runs⟩ := receives c k mem
    rw [runs, receive_cut k f take s can cut]
    rfl
  · obtain ⟨take, runs⟩ := receives c k mem
    rw [runs, receive_failed k f take s can key short failed]
    rfl
  · rw [execDocketOffer_passed f read s can passed, offerFor_bad read bad]
    rfl
  · rw [execReleaseCall_passed f read s can passed, callFor_bad read (s := buffered f s) dest]
    rfl
  · rw [execDocketDirect_passed f read s can passed, directFor_bad read (s := buffered f s) bad]
    rfl
  · rw [execDocketReturn_passed f read s can passed, returnFor_bad read (s := buffered f s) bad]
    rfl
  · rw [execStationCard_passed f s can passed, cardFor_bad (s := buffered f s) bad]
    rfl
  · rw [execVerdictNote_passed f s can passed, noteFor_bad bad]
    rfl

end Sys2Proof.Machine
end

section
/-! The placement of an offer and the arbitration of calls (R50, R164): the first address with the greatest key, among those
that qualify. -/

namespace Sys2Proof.Machine

/-! ### The first address with the greatest key -/

/-- Of the addresses of a list, `a` has the greatest key, and of those with that key it is the lowest. -/
def IsFirstMax (key : Addr → Nat) (l : List Addr) (a : Addr) : Prop :=
  a ∈ l ∧ ∀ b ∈ l, b ≠ a → key b < key a ∨ (key b = key a ∧ a.toNat < b.toNat)

theorem IsFirstMax.unique {key : Addr → Nat} {l : List Addr} {a b : Addr} (ha : IsFirstMax key l a)
    (hb : IsFirstMax key l b) : a = b := by
  by_contra ne
  have first := ha.2 b hb.1 (Ne.symm ne)
  have second := hb.2 a ha.1 ne
  omega

theorem firstMax_none (key : Addr → Nat) (l : List Addr) : firstMax key l = none ↔ l = [] := by
  cases l with
  | nil => simp [firstMax]
  | cons x l =>
    simp only [firstMax, reduceCtorEq, iff_false]
    split
    · simp
    · split <;> simp

/-- In a list of rising addresses the search answers that address. -/
theorem firstMax_isFirstMax (key : Addr → Nat) (l : List Addr) (rising : l.Pairwise fun a b => a.toNat < b.toNat)
    (a : Addr) (found : firstMax key l = some a) : IsFirstMax key l a := by
  induction l generalizing a with
  | nil => cases found
  | cons x l ih =>
    obtain ⟨below, rest⟩ := List.pairwise_cons.mp rising
    unfold firstMax at found
    cases tail : firstMax key l with
    | none =>
      rw [tail] at found
      cases found
      have empty := (firstMax_none key l).mp tail
      subst empty
      refine ⟨by simp, fun b hb ne => absurd ?_ ne⟩
      simpa using hb
    | some b =>
      rw [tail] at found
      obtain ⟨mem, best⟩ := ih rest b tail
      dsimp only at found
      split at found
      · rename_i greater
        cases found
        refine ⟨List.mem_cons_of_mem _ mem, fun c hc ne => ?_⟩
        rcases List.mem_cons.mp hc with rfl | hc
        · exact .inl greater
        · exact best c hc ne
      · rename_i notGreater
        cases found
        refine ⟨List.mem_cons_self, fun c hc ne => ?_⟩
        rcases List.mem_cons.mp hc with rfl | hc
        · contradiction
        · have low := below c hc
          by_cases same : c = b
          · subst same; omega
          · have := best c hc same; omega

theorem firstMax_iff (key : Addr → Nat) (l : List Addr) (rising : l.Pairwise fun a b => a.toNat < b.toNat) (a : Addr) :
    firstMax key l = some a ↔ IsFirstMax key l a := by
  refine ⟨firstMax_isFirstMax key l rising a, fun best => ?_⟩
  cases found : firstMax key l with
  | none =>
    rw [(firstMax_none key l).mp found] at best
    exact absurd best.1 (by simp)
  | some b => rw [(firstMax_isFirstMax key l rising b found).unique best]

/-- Among the addresses that qualify, the search over all addresses answers none, or the best. -/
theorem firstMax_filter (key : Addr → Nat) (p : Addr → Bool) :
    (firstMax key (allAddrs.filter p) = none ↔ ∀ a, ¬ p a = true) ∧
    ∀ a, firstMax key (allAddrs.filter p) = some a ↔ p a = true ∧
      ∀ b, p b = true → b ≠ a → key b < key a ∨ (key b = key a ∧ a.toNat < b.toNat) := by
  have mem (a : Addr) : a ∈ allAddrs.filter p ↔ p a = true := by simp [List.mem_filter, mem_allAddrs]
  constructor
  · rw [firstMax_none, List.eq_nil_iff_forall_not_mem]
    simp only [mem]
  · intro a
    rw [firstMax_iff key _ (allAddrs_sorted.sublist List.filter_sublist)]
    simp only [IsFirstMax, mem]

/-! ### The addresses that qualify -/

theorem View.shows_iff (v : View) (r : Role) (n : Nat) :
    v.shows r [n] = true ↔ ∃ w, v = .intact w ∧ postRole w = some r ∧ postState w = n := by
  cases v <;> simp [View.shows]

theorem Card.covers_iff (c : Card) (d : Docket) : c.covers d = true ↔
    c.role = .test ∧ ∃ h, c.head = some h ∧ d.testPressure ≤ h.rating ∧ d.waterCapacity ≤ h.capacity := by
  unfold Card.covers
  cases c.role <;> cases c.head <;> simp

/-- A head is a candidate for a docket when it posts IDLE and its card covers the docket (R50). -/
theorem State.candidate_iff (s : State) (d : Docket) (a : Addr) : s.candidate d a = true ↔
    ∃ v c h, (s.entry a).view = .intact v ∧ postRole v = some .test ∧ postState v = 1 ∧ (s.entry a).card = some c ∧
      c.role = .test ∧ c.head = some h ∧ d.testPressure ≤ h.rating ∧ d.waterCapacity ≤ h.capacity := by
  unfold State.candidate State.cardCovers
  rw [Bool.and_eq_true, View.shows_iff]
  cases (s.entry a).card with
  | none => simp
  | some c =>
    rw [Card.covers_iff]
    constructor
    · rintro ⟨⟨v, view, role, state⟩, test, h, head, fits⟩
      exact ⟨v, c, h, view, role, state, rfl, test, head, fits⟩
    · rintro ⟨v, c', h, view, role, state, same, test, head, fits⟩
      cases same
      exact ⟨⟨v, view, role, state⟩, test, h, head, fits⟩

/-- The argument of a DONE post orders heads by the urgent flag and then by the done age (R164, Table 2-6). -/
theorem arg_lt_iff (x y : Nat) : y < x ↔ y / 32 < x / 32 ∨ (y / 32 = x / 32 ∧ y % 32 < x % 32) := by omega

/-- Settles O38: both choices are the first greatest among those that qualify. -/
theorem placementAndArbitration : Obligations.PlacementAndArbitration := by
  refine ⟨fun s d => ?_, fun s => ?_⟩
  · have chosen := firstMax_filter (fun a => (s.entry a).view.arg) (s.candidate d)
    simp only [State.candidate_iff] at chosen
    exact chosen
  · have called := firstMax_filter (fun a => (s.entry a).view.arg) fun a => (s.entry a).view.shows .test [11]
    simp only [View.shows_iff] at called
    obtain ⟨none', best⟩ := called
    refine ⟨none', fun a => (best a).trans (and_congr_right fun _ => forall₃_congr fun b _ _ => ?_)⟩
    rw [arg_lt_iff, or_assoc]

end Sys2Proof.Machine
end

section
/-! The decisions of INSPECT at a round's end (R51, R73, R74; log 11): what the infeed front and then the direct front make of
the transmit queue and of the intake unit. -/

namespace Sys2Proof.Machine

/-! ### What the decisions read -/

section
variable {s t : State}

theorem covered_congr (table : t.pvt = s.pvt) (d : Docket) : t.covered d = s.covered d := by
  unfold State.covered State.cardCovers State.entry
  rw [table]

theorem chosenHead_congr (table : t.pvt = s.pvt) (d : Docket) : t.chosenHead d = s.chosenHead d := by
  unfold State.chosenHead State.candidate State.cardCovers State.entry
  rw [table]

theorem disposeAddr_congr (table : t.pvt = s.pvt) : t.disposeAddr = s.disposeAddr := by
  unfold State.disposeAddr State.entry
  rw [table]

theorem hasMsg_iff (k : MsgKind) : s.hasMsg k = true ↔ ∃ m ∈ s.txq, m.kind = k := by
  simp [State.hasMsg]

theorem txRoom_iff : s.txRoom = true ↔ s.txq.length < 4 := decide_eq_true_iff

/-- With the line not silent an offer may be queued when none is, a place is free, the infeed channel is idle and no stop
stands (R51, R73). -/
theorem mayOffer_iff (heard : s.lif.lineSilent = false) : s.mayOffer = true ↔
    (¬ ∃ m ∈ s.txq, m.kind = .docketOffer) ∧ s.txq.length < 4 ∧ s.ieu.infeedCh = .idle ∧ s.ieu.state ≠ .estop := by
  rw [← hasMsg_iff, ← txRoom_iff]
  simp [State.mayOffer, heard, and_assoc]

/-- So with a direct send, which the direct fault forbids too (R74, R75). -/
theorem mayDirect_iff (heard : s.lif.lineSilent = false) : s.mayDirect = true ↔
    (¬ ∃ m ∈ s.txq, m.kind = .docketDirect) ∧ s.txq.length < 4 ∧ s.ieu.bypass = .idle ∧ s.ieu.directFault = false ∧
      s.ieu.state ≠ .estop := by
  rw [← hasMsg_iff, ← txRoom_iff]
  simp [State.mayDirect, heard, and_assoc]

theorem Ieu.canMove_iff (u : Ieu) : u.canMove = true ↔
    u.direct.length < 4 ∧ u.infeedCh = .idle ∧ u.stage ≠ .pulsing .stageBy ∧ u.stage ≠ .owed .stageBy ∧
      u.state ≠ .estop := by
  show u.canMove = true ↔ u.direct.length < Config.directCap ∧ _
  simp [Ieu.canMove, Channel.carries, and_assoc]

/-! ### The infeed front -/

/-- The messages of a queue that are no offers. -/
def unoffered (q : List TxMsg) : List TxMsg := q.filter fun m => m.kind != .docketOffer

/-- With no sending in progress a withdrawn message leaves at once (R48). -/
theorem withdrawMsg_idle (still : s.sending = false) :
    withdrawMsg .docketOffer s = { s with txq := unoffered s.txq } := by
  have gone : (fun m : TxMsg => if m.kind != .docketOffer then some m
      else if m.contending && s.sending then some { m with withdraw := true } else none) =
      Option.guard fun m => m.kind != .docketOffer := by
    funext m
    rw [still, Bool.and_false]
    rfl
  unfold withdrawMsg
  rw [gone, List.filterMap_eq_filter]
  rfl

/-- The offer of a docket (R50, R51). -/
def offerMsg (d : Docket) : TxMsg := { kind := .docketOffer, dest := 0x10, body := docketBody .docketOffer d }

theorem offerDecision_empty (none' : s.ieu.infeed = []) : offerDecision s = s := by
  rw [offerDecision, none']

theorem offerDecision_front {d : Docket} {rest : List Docket} (front : s.ieu.infeed = d :: rest) :
    offerDecision s =
      if s.covered d then
        if (s.chosenHead d).isNone then withdrawMsg .docketOffer s
        else if s.mayOffer then queueMsg (offerMsg d) s else s
      else if s.ieu.canMove then noHeadMove d s else withdrawMsg .docketOffer s := by
  rw [offerDecision, front]
  rfl

section
variable {d : Docket} {rest : List Docket} (front : s.ieu.infeed = d :: rest)
include front

/-- A docket for which no head is chosen has no offer in the queue (R51). -/
theorem offerDecision_unplaced (still : s.sending = false) (cover : s.covered d = true)
    (unplaced : s.chosenHead d = none) : offerDecision s = { s with txq := unoffered s.txq } := by
  rw [offerDecision_front front, cover, unplaced]
  exact withdrawMsg_idle still

/-- One with a head is offered when it may be (R50, R51). -/
theorem offerDecision_offers {a : Addr} (free : s.lif.roleConflict = false) (cover : s.covered d = true)
    (placed : s.chosenHead d = some a) (may : s.mayOffer = true) :
    offerDecision s = { s with txq := insertMsg (offerMsg d) s.txq } := by
  have room : s.txq.length < 4 := by
    simp only [State.mayOffer, Bool.and_eq_true] at may
    exact txRoom_iff.mp may.1.1.1.2
  rw [offerDecision_front front, cover, placed, may]
  exact queueMsg_taken (offerMsg d) s room free

theorem offerDecision_waits {a : Addr} (cover : s.covered d = true) (placed : s.chosenHead d = some a)
    (mayNot : s.mayOffer = false) : offerDecision s = s := by
  rw [offerDecision_front front, cover, placed, mayNot]
  rfl

/-- One that no card covers leaves for the direct queue when the move can be made (R6, R73). -/
theorem offerDecision_moves (still : s.sending = false) (uncovered : s.covered d = false) (can : s.ieu.canMove = true) :
    offerDecision s = { s with
      txq := unoffered s.txq
      ieu := { s.ieu with
        infeed := rest
        direct := s.ieu.direct ++ [{ d with intent := some .hold, reason := some .noHead }]
        infeedCh := .pulsing .infeedDivert
        stall := 0
        state := stateAfterInfeed s.ieu } } := by
  rw [offerDecision_front front, uncovered, can]
  show noHeadMove d s = _
  unfold noHeadMove
  rw [withdrawMsg_idle still]
  dsimp only
  rw [Ieu.popInfeed_eq, front]
  rfl

theorem offerDecision_stays (still : s.sending = false) (uncovered : s.covered d = false)
    (cannot : s.ieu.canMove = false) : offerDecision s = { s with txq := unoffered s.txq } := by
  rw [offerDecision_front front, uncovered, cannot]
  exact withdrawMsg_idle still

end

/-! ### The direct front -/

/-- The sending of a direct docket to a DISPOSE address (R74). -/
def directMsg (a : Addr) (d : Docket) : TxMsg :=
  { kind := .docketDirect, dest := 0#4 ++ a, body := docketBody .docketDirect d }

/-- The direct front is sent when an address takes it and it may be (R74). -/
theorem directDecision_sends {d : Docket} {rest : List Docket} {a : Addr} (free : s.lif.roleConflict = false)
    (front : s.ieu.direct = d :: rest) (target : s.disposeAddr = some a) (may : s.mayDirect = true) :
    directDecision s = { s with txq := insertMsg (directMsg a d) s.txq } := by
  have room : s.txq.length < 4 := by
    simp only [State.mayDirect, Bool.and_eq_true] at may
    exact txRoom_iff.mp may.1.1.1.1.2
  rw [directDecision, front, target]
  exact (if_pos may).trans (queueMsg_taken (directMsg a d) s room free)

theorem directDecision_waits (no : s.ieu.direct = [] ∨ s.disposeAddr = none ∨ ¬ s.mayDirect = true) :
    directDecision s = s := by
  unfold directDecision
  split
  · rename_i front target
    rcases no with none' | none' | mayNot
    · rw [none'] at front; cases front
    · rw [none'] at target; cases target
    · exact if_neg mayNot
  · rfl

end

/-! ### The state ahead of the decisions -/

section
variable (w : PostWord) (posts : List PostWord) (cell263 : Bool) (s : State)

theorem conflictStep_unseen (r : Role) (u : State) (unseen : u.seesTwin r = false) : conflictStep r u = u :=
  if_neg (by simp [unseen])

/-- Out of ROLE_CONFLICT the round's end has left the queue that `RoundEndQueue` names, the intake unit as the drop left it,
the line heard, and no sending in progress (R24, R36, R38, R47). -/
theorem roundCounted_inspect (due : s.roundDue = true)
    (free : (roundCounted .inspect w posts cell263 s).lif.roleConflict = false) :
    let v := roundCounted .inspect w posts cell263 s
    RoundEndQueue .inspect posts (dropMessage s) v.txq ∧ v.ieu = (dropMessage s).ieu ∧ v.lif.lineSilent = false ∧
      v.sending = false := by
  intro v
  have lif := roundCounted_lif .inspect w posts cell263 s
  have unseen : (roundCarded .inspect w posts cell263 s).seesTwin .inspect = false := by
    rw [lif] at free
    exact (Bool.or_eq_false_iff.mp free).2
  obtain ⟨x, a, counted⟩ := counted_frame (roundCarded .inspect w posts cell263 s)
  have stages : v = staleStep (refreshShare (ageStep (waitStep (roundCarded .inspect w posts cell263 s)))) := by
    show roundCounted .inspect w posts cell263 s = _
    rw [roundCounted, conflictStep_unseen _ _ unseen]
  refine ⟨?_, ?_, ?_, ?_⟩
  · have queue := roundEnd_queue .inspect posts w cell263 (dropMessage s)
    rw [dropMessage_pvt] at queue
    rw [stages, counted]
    exact queue
  · obtain ⟨q, p, carded⟩ := cardStep_frame .inspect s.pvt (roundTabled w posts cell263 s)
    rw [stages, counted, roundCarded, carded]
    rfl
  · rw [lif]
  · have still : s.sending = false := by
      simp only [State.roundDue, Bool.and_eq_true, Bool.not_eq_true'] at due
      exact due.2
    rw [← still]
    unfold State.sending
    rw [lif]

/-- What a round's end leaves at INSPECT out of ROLE_CONFLICT: the decisions of the infeed front and of the direct front. -/
theorem completeRound_inspect (free : (roundCounted .inspect w posts cell263 s).lif.roleConflict = false) :
    let t := completeRound .inspect w posts cell263 s
    let z := directDecision (offerDecision (roundCounted .inspect w posts cell263 s))
    t.txq = z.txq ∧ t.ieu = z.ieu := by
  have decided : roleStep .inspect (roundCounted .inspect w posts cell263 s) =
      directDecision (offerDecision (roundCounted .inspect w posts cell263 s)) :=
    if_neg (by rw [free]; exact Bool.false_ne_true)
  obtain ⟨l, ended⟩ := endRound_frame (roleStep .inspect (roundCounted .inspect w posts cell263 s))
  rw [completeRound_eq, ended, decided]
  exact ⟨rfl, rfl⟩

theorem completeRound_free (free : (completeRound .inspect w posts cell263 s).lif.roleConflict = false) :
    (roundCounted .inspect w posts cell263 s).lif.roleConflict = false := by
  rw [completeRound_lif] at free
  split at free <;> exact free

end

/-- Settles O40: the drop first; then, out of ROLE_CONFLICT, the cases of the infeed front and those of the direct front. -/
theorem offersQueuedAtRoundEnd : Obligations.OffersQueuedAtRoundEnd := by
  intro posts cell263 w s role posted due _ has unofferedOf
  refine ⟨_, _, (roundCounted .inspect w posts cell263 s).txq,
    (offerDecision (roundCounted .inspect w posts cell263 s)).txq,
    (offerDecision (roundCounted .inspect w posts cell263 s)).ieu, execMessageDropped_eq s,
    execRoundEnd_due posts cell263 .inspect w s role posted due, fun noConflict => ?_⟩
  have free := completeRound_free w posts cell263 s noConflict
  obtain ⟨queue, ieu, heard, still⟩ := roundCounted_inspect w posts cell263 s due free
  obtain ⟨txq', ieu'⟩ := completeRound_inspect w posts cell263 s free
  have table : (completeRound .inspect w posts cell263 s).pvt = (roundCounted .inspect w posts cell263 s).pvt := by
    rw [completeRound_pvt, roundCounted_pvt]
  generalize completeRound .inspect w posts cell263 s = t at *
  generalize roundCounted .inspect w posts cell263 s = v at *
  obtain ⟨q, u, frame⟩ := offerDecision_frame v
  rw [← ieu, ieu']
  refine ⟨queue, fun none' => ?_, fun d rest front cover => ?_, fun d rest front uncovered => ?_, ?_, ?_⟩
  · rw [offerDecision_empty none']
    exact ⟨rfl, rfl⟩
  · rw [covered_congr table] at cover
    rw [chosenHead_congr table]
    dsimp only
    rw [← mayOffer_iff heard]
    cases placed : v.chosenHead d with
    | none =>
      rw [offerDecision_unplaced front still cover placed]
      exact ⟨rfl, fun _ => rfl, fun _ no => (nomatch no), fun _ no => (nomatch no)⟩
    | some a =>
      cases may : v.mayOffer with
      | true =>
        rw [offerDecision_offers front free cover placed may]
        exact ⟨rfl, fun no => (nomatch no), fun _ _ _ => rfl, fun _ _ mayNot => absurd rfl mayNot⟩
      | false =>
        rw [offerDecision_waits front cover placed may]
        exact ⟨rfl, fun no => (nomatch no), fun _ _ no => (Bool.false_ne_true no).elim, fun _ _ _ => rfl⟩
  · rw [covered_congr table] at uncovered
    dsimp only
    rw [← Ieu.canMove_iff]
    cases can : v.ieu.canMove with
    | true =>
      rw [offerDecision_moves front still uncovered can]
      exact ⟨rfl, fun _ => rfl, fun cannot => absurd rfl cannot⟩
    | false =>
      rw [offerDecision_stays front still uncovered can]
      exact ⟨rfl, fun no => (Bool.false_ne_true no).elim, fun _ => rfl⟩
  · have after : (offerDecision v).lif = v.lif ∧ (offerDecision v).pvt = v.pvt := by rw [frame]; exact ⟨rfl, rfl⟩
    obtain ⟨lif, pvt⟩ := after
    have target := disposeAddr_congr (table.trans pvt.symm)
    dsimp only
    rw [← mayDirect_iff (by rw [lif]; exact heard), txq', target]
    refine ⟨fun d rest a front sendTo may => ?_, fun no => ?_⟩
    · rw [directDecision_sends (by rw [lif]; exact free) front sendTo may]
      rfl
    · rw [directDecision_waits no]
  · obtain ⟨p, sent⟩ := directDecision_frame (offerDecision v)
    rw [sent]

end Sys2Proof.Machine
end

section
/-! The moves of the intake unit that no entry and no message makes: a stop and its end, INFEED_CLEAR, the ends of the
pulses and the sending of a reply (R55, R56, R60, R72, R156). -/

namespace Sys2Proof.Machine

theorem ieuActs_iff (s : State) : s.ieuActs = true ↔ s.role = some .inspect ∧ s.lif.roleConflict = false := by
  simp [State.ieuActs]

/-! ### The stop and its end (R56, R156) -/

/-- The messages of a kind leave the queue, one that is being sent at the end of its sending (R48). -/
theorem withdrawMsg_eq (k : MsgKind) (s : State) : withdrawMsg k s = { s with
    txq := s.txq.filterMap fun m =>
      if m.kind ≠ k then some m
      else if m.contending = true ∧ s.sending = true then some { m with withdraw := true } else none } := by
  simp [withdrawMsg, State.withTxq]

/-- The stop flag with the input that sets it (R156). -/
def stopMarked (on : Bool) (s : State) : State :=
  { s with inputs := { s.inputs with estop := on }, ilk := { s.ilk with stopFlag := on } }

theorem intakeStop_eq (s : State) : intakeStop s = { s with
    txq := s.txq.filterMap fun m =>
      if m.kind ≠ .docketOffer then some m
      else if m.contending = true ∧ s.sending = true then some { m with withdraw := true } else none
    ieu := { s.ieu with
      state := .estop, left := s.ieu.state, stage := s.ieu.stage.stopped, infeedCh := s.ieu.infeedCh.stopped
      bypass := s.ieu.bypass.stopped } } :=
  withdrawMsg_eq .docketOffer _

/-- The state left comes back with the entry conditions of READY (R55, R56). -/
theorem intakeResume_eq (s : State) : intakeResume s = { s with ieu := { s.ieu with
    state := if s.ieu.left = .ready ∨ s.ieu.left = .infeedFull then readyOrFull s.ieu.infeed s.ieu.directFault
      else s.ieu.left
    stage := s.ieu.stage.resumed, infeedCh := s.ieu.infeedCh.resumed, bypass := s.ieu.bypass.resumed } } := by
  unfold intakeResume
  simp only [Ieu.toReady_eq, Ieu.refresh_eq]
  cases s.ieu.left <;> rfl

section
variable {s : State} (role : s.role = some .inspect)
include role

theorem execStopReported_first (free : s.lif.roleConflict = false) (clear : s.ilk.stopFlag = false) :
    exec .stopReported s = .next (intakeStop (stopMarked true s)) := by
  show execStopReported s = _
  simp only [execStopReported, role, clear, stopReported, free, Bool.false_eq_true, if_false]
  rfl

/-- The flag is set once in a stop (R156). -/
theorem execStopReported_again (stands : s.ilk.stopFlag = true) : exec .stopReported s = .next s := by
  show execStopReported s = _
  simp only [execStopReported, role, stands, if_true]

theorem execStopEnded_resumes (free : s.lif.roleConflict = false) (stands : s.ilk.stopFlag = true)
    (stopped : s.ieu.state = .estop) : exec .stopEnded s = .next (intakeResume (stopMarked false s)) := by
  show execStopEnded s = _
  have resumes : stopEnded .inspect s =
      if s.ieu.state == .estop then intakeResume (stopMarked false s) else stopMarked false s :=
    if_neg (by simp [free])
  simp only [execStopEnded, role, stands, if_true, resumes, stopped, beq_self_eq_true]

theorem execStopEnded_none (clear : s.ilk.stopFlag = false) : exec .stopEnded s = .next s := by
  show execStopEnded s = _
  simp only [execStopEnded, role, clear, Bool.false_eq_true, if_false]

end

/-! ### PURGE, the pulses and the replies (R55, R60, R72) -/

section
variable {s : State} (acts : s.ieuActs = true)
include acts

theorem execInfeedClear_purge (purge : s.ieu.state = .purge) : exec .infeedClear s = .next { s with ieu := { s.ieu with
    state := if s.ieu.period.isSome then readyOrFull s.ieu.infeed s.ieu.directFault else .noPeriod } } := by
  show execInfeedClear s = _
  simp only [execInfeedClear, acts, purge, beq_self_eq_true, Bool.and_self, if_true, Ieu.toReady_eq]
  cases s.ieu.period <;> rfl

/-- The end of a pulse is its channel's alone (R72). -/
theorem execPulseEnd_acts (c : ChannelName) : exec (.pulseEnd c) s = .next { s with ieu :=
    match c with
    | .stage => { s.ieu with stage := s.ieu.stage.ended }
    | .infeed => { s.ieu with infeedCh := s.ieu.infeedCh.ended }
    | .bypass => { s.ieu with bypass := s.ieu.bypass.ended } } := by
  show execPulseEnd c s = _
  simp only [execPulseEnd, acts, if_true]
  cases c <;> rfl

end

theorem execInfeedClear_elsewhere (s : State) (other : s.ieu.state ≠ .purge) : exec .infeedClear s = .next s :=
  if_neg (by simp [other])

/-- The oldest waiting line goes out, its line feed after it (R60; log 27). -/
theorem execTerminalReplySent_oldest {s : State} (role : s.role = some .inspect) {r : Reply} {rest : List Reply}
    (waits : s.ports.waiting = r :: rest) : exec .terminalReplySent s = .next
      { s with ports := { s.ports with waiting := rest, trmSent := some (replyText r ++ [0x0A]) } } := by
  show execTerminalReplySent s = _
  rw [execTerminalReplySent, role, waits]
  rfl

theorem execTerminalReplySent_none {s : State} (none' : s.ports.waiting = []) :
    exec .terminalReplySent s = .next s := by
  show execTerminalReplySent s = _
  rw [execTerminalReplySent, none']
  split
  · contradiction
  · rfl

/-- Settles O51: a stop, its end, INFEED_CLEAR, the pulses and the replies, each by its rule above. -/
theorem intakeStopsAndMoves : Obligations.IntakeStopsAndMoves := by
  intro s role free stopped resumed ended
  have acts : s.ieuActs = true := (ieuActs_iff s).mpr ⟨role, free⟩
  refine ⟨fun clear => ?_, execStopReported_again role, fun stands estop _ => ?_, execStopEnded_none role,
    execInfeedClear_purge acts, execInfeedClear_elsewhere s, execPulseEnd_acts acts .stage,
    execPulseEnd_acts acts .infeed, execPulseEnd_acts acts .bypass, fun r rest => execTerminalReplySent_oldest role,
    execTerminalReplySent_none⟩
  · rw [execStopReported_first role free clear, intakeStop_eq]
    rfl
  · rw [execStopEnded_resumes role free stands estop, intakeResume_eq]
    rfl

end Sys2Proof.Machine
end

section
/-! READER_LINE: the checks of Table 4-3 as the search for the first field that breaks, and what the line makes of the
unit (R3, R57 to R59; logs 19, 41). -/

namespace Sys2Proof.Machine

/-! ### The first field that breaks (R58) -/

/-- Field `n` of a reader line breaks, as the search of R58 tests it. -/
def readerFieldBad (b : LineBuffer) (n : Nat) : Bool :=
  (b.badAt.isSome && n == (readerFields b).length) ||
  (if n ≤ 8 then !readerFieldOk n ((readerFields b).getD (n - 1) [])
    else n ≤ (readerFields b).length && !readerFieldOk n ((readerFields b).getD (n - 1) []))

theorem readerFault_eq (b : LineBuffer) : readerFault b = (List.range' 1 10).find? (readerFieldBad b) := rfl

theorem readerFieldBad_iff (b : LineBuffer) (n : Nat) : readerFieldBad b n = true ↔ ReaderFieldBreaks b n := by
  unfold readerFieldBad ReaderFieldBreaks
  dsimp only
  rw [← readerFieldOk_iff, Bool.or_eq_true]
  refine or_congr (by simp) ?_
  by_cases early : n ≤ 8
  · simp [early]
  · simp [early]

theorem readerFault_none_iff (b : LineBuffer) :
    readerFault b = none ↔ ∀ n, 1 ≤ n → n ≤ 10 → ¬ ReaderFieldBreaks b n := by
  simp only [readerFault_eq, List.find?_eq_none, readerFieldBad_iff, List.mem_range'_1]
  exact forall_congr' fun n =>
    ⟨fun good low high => good ⟨low, by omega⟩, fun good field => good field.1 (by omega)⟩

/-- The number given is that of the first field that breaks. -/
theorem readerFault_some_iff (b : LineBuffer) (n : Nat) : readerFault b = some n ↔
    1 ≤ n ∧ n ≤ 10 ∧ ReaderFieldBreaks b n ∧ ∀ m, 1 ≤ m → m < n → ¬ ReaderFieldBreaks b m := by
  simp only [readerFault_eq, List.find?_range'_eq_some, readerFieldBad_iff, List.mem_range'_1, Bool.not_eq_true',
    ← Bool.not_eq_true]
  constructor
  · rintro ⟨breaks, ⟨low, high⟩, before⟩
    exact ⟨low, by omega, breaks, before⟩
  · rintro ⟨low, high, breaks, before⟩
    exact ⟨breaks, ⟨low, by omega⟩, before⟩

/-! ### What the line makes of the unit (R59) -/

/-- The state with a line in the buffer of port A (R57). -/
def lineAHeld (b : LineBuffer) (s : State) : State := { s with ports := { s.ports with lineA := b } }

theorem takeReader_rejects {b : LineBuffer} {n : Nat} (bad : readerFault b = some n) (s : State) :
    takeReader b s = reply (.idRejected n) s := by
  rw [takeReader, bad]

theorem takeReader_creates {b : LineBuffer} (good : readerFault b = none) (s : State) :
    takeReader b s = reply (.okId (readerDocket b).mfr (readerDocket b).serial)
      { s with ieu := { s.ieu with work := some (readerDocket b), state := .inspecting } } := by
  rw [takeReader, good]
  rfl

section
variable {l : PortLine} {s : State} (role : s.role = some .inspect) (handed : lineHanded l = true)
include role handed

theorem execReaderLine_handed : exec (.readerLine l) s = .next
    (if s.ieuActs && s.ieu.state == .ready then takeReader (assembleLine 64 l) (lineAHeld (assembleLine 64 l) s)
      else reply .busy (lineAHeld (assembleLine 64 l) s)) := by
  have inspect : (s.role == some .inspect) = true := by rw [role]; rfl
  exact (if_pos inspect).trans (congrArg Host.Outcome.next (if_pos handed))

theorem execReaderLine_ready (free : s.lif.roleConflict = false) (ready : s.ieu.state = .ready) :
    exec (.readerLine l) s = .next (takeReader (assembleLine 64 l) (lineAHeld (assembleLine 64 l) s)) := by
  have acts : s.ieuActs = true := (ieuActs_iff s).mpr ⟨role, free⟩
  rw [execReaderLine_handed role handed, if_pos (by simp [acts, ready])]

/-- Out of READY, and in CONFLICT, the line is not read (R59). -/
theorem execReaderLine_busy (shut : s.ieu.state ≠ .ready ∨ s.lif.roleConflict = true) :
    exec (.readerLine l) s = .next (reply .busy (lineAHeld (assembleLine 64 l) s)) := by
  rw [execReaderLine_handed role handed, if_neg]
  rcases shut with other | conflict
  · simp [other]
  · simp [State.ieuActs, conflict]

end

/-- The docket of a line of eight or nine fields: each field in its place (R59, Table 4-3). -/
theorem readerDocket_of_fields (b : LineBuffer) (m n c tp wc ta my yy ree : Text)
    (fields : readerFields b = [m, n, c, tp, wc, ta, my, yy] ∨ readerFields b = [m, n, c, tp, wc, ta, my, yy, ree]) :
    readerDocket b =
      { mfr := m, serial := n, hash := crc16Bytes (m ++ n), cls := decValue c, testPressure := decValue tp
        waterCapacity := decValue wc, tare := decValue ta
        ree := if (readerFields b).length = 9 then some (decValue ree) else none
        lastMonth := decValue (my.take 2), lastYear := decValue (my.drop 3), mfgYear := decValue yy } := by
  unfold readerDocket
  rcases fields with eight | nine
  · rw [eight]
    rfl
  · rw [nine]
    rfl

/-- Settles O52: the line by the state it finds, its checks as a search, and the docket by the fields; the check value of
the CRC-16 by evaluation. -/
theorem readerLineTaken : Obligations.ReaderLineTaken := by
  refine ⟨fun l s role handed => ?_, fun b => ⟨readerFault_none_iff b, readerFault_some_iff b⟩,
    readerDocket_of_fields, by decide +kernel⟩
  refine ⟨fun free ready good => ?_, fun n free ready bad => ?_, fun shut => ?_⟩
  · rw [execReaderLine_ready role handed free ready, takeReader_creates good, reply_eq]
    rfl
  · rw [execReaderLine_ready role handed free ready, takeReader_rejects bad, reply_eq]
    rfl
  · rw [execReaderLine_busy role handed shut, reply_eq]
    rfl

end Sys2Proof.Machine
end

section
/-! The entries of the terminal (R60 to R65, Table 4-4; logs 35, 36): the checks ahead of an entry, the forms of the
arguments, and what each entry makes of the unit. -/

namespace Sys2Proof.Machine

/-! ### The checks ahead of an entry (R57, R60) -/

/-- The state with a terminal line in the buffer of port B (R57). -/
def lineHeld (l : PortLine) (s : State) : State := { s with ports := { s.ports with lineB := assembleLine 32 l } }

/-- The state whose terminal line has been answered, with no other effect. -/
def lineAnswered (l : PortLine) (r : Reply) (s : State) : State :=
  { s with ports := { s.ports with lineB := assembleLine 32 l, waiting := repliedWith r s.ports } }

theorem reply_lineHeld (l : PortLine) (r : Reply) (s : State) :
    reply r (lineHeld l s) = lineAnswered l r s :=
  reply_eq r _

/-- A terminal line handed to a running INSPECT station out of ESTOP and CONFLICT, so that the entry is not answered BUSY
ahead of its form. -/
structure LiveEntry (l : PortLine) (s : State) : Prop where
  role : s.role = some .inspect
  handed : lineHanded l = true
  running : s.ieu.state ≠ .estop
  free : s.lif.roleConflict = false

section
variable {l : PortLine} {s : State} {form : List Text → Bool} {act : List Text → State → State}

section
variable (role : s.role = some .inspect) (handed : lineHanded l = true)
include role handed

theorem checkedEntry_handed : terminalLine l (entryChecks form act) s =
    entryChecks form act (assembleLine 32 l) (lineHeld l s) :=
  terminalLine_handed l _ s role handed

theorem checkedEntry_shut (shut : s.ieu.state = .estop ∨ s.lif.roleConflict = true) :
    terminalLine l (entryChecks form act) s = lineAnswered l .busy s := by
  rw [checkedEntry_handed role handed, ← reply_lineHeld]
  exact if_pos (by rcases shut with estop | conflict <;> simp [lineHeld, *])

end

variable (live : LiveEntry l s)
include live

theorem checkedEntry_live : terminalLine l (entryChecks form act) s =
    if (assembleLine 32 l).badAt.isSome || !form (entryArgs (assembleLine 32 l)) then lineAnswered l .errSyntax s
    else act (entryArgs (assembleLine 32 l)) (lineHeld l s) := by
  rw [checkedEntry_handed live.role live.handed, ← reply_lineHeld]
  exact if_neg (by simp [lineHeld, live.running, live.free])

theorem checkedEntry_malformed
    (bad : (assembleLine 32 l).badAt.isSome = true ∨ ¬ form (entryArgs (assembleLine 32 l)) = true) :
    terminalLine l (entryChecks form act) s = lineAnswered l .errSyntax s := by
  rw [checkedEntry_live live]
  exact if_pos (by simpa using bad)

theorem checkedEntry_taken (clean : (assembleLine 32 l).badAt = none) {args : List Text}
    (entered : entryArgs (assembleLine 32 l) = args) (formed : form args = true) :
    terminalLine l (entryChecks form act) s = act args (lineHeld l s) := by
  rw [checkedEntry_live live, clean, entered, formed]
  rfl

/-- An entry that its action only answers. -/
theorem checkedEntry_answered (clean : (assembleLine 32 l).badAt = none) {args : List Text}
    (entered : entryArgs (assembleLine 32 l) = args) (formed : form args = true) {r : Reply}
    (answer : act args (lineHeld l s) = reply r (lineHeld l s)) :
    terminalLine l (entryChecks form act) s = lineAnswered l r s := by
  rw [checkedEntry_taken live clean entered formed, answer, reply_lineHeld]

end

/-! ### The forms of the arguments (R60 to R64; log 35) -/

theorem oneArg_iff (p : Text → Bool) (args : List Text) :
    (args.length == 1 && p (args.getD 0 [])) = true ↔ ∃ n, args = [n] ∧ p n = true := by
  rw [Bool.and_eq_true, beq_iff_eq, List.length_eq_one_iff]
  constructor
  · rintro ⟨⟨n, rfl⟩, formed⟩
    exact ⟨n, rfl, formed⟩
  · rintro ⟨n, rfl, formed⟩
    exact ⟨⟨n, rfl⟩, formed⟩

theorem numberForm_iff (t : Text) :
    numberForm t = true ↔ 1 ≤ t.length ∧ t.length ≤ 7 ∧ t.all isDigit = true := by
  simp [numberForm, and_assoc]

theorem periodForm_iff (t : Text) : periodForm t = true ↔
    t.length = 7 ∧ (t.take 2).all isDigit = true ∧ t.getD 2 0 = 0x2F ∧ (t.drop 3).all isDigit = true := by
  simp only [periodForm, twoDigits, Bool.and_eq_true, beq_iff_eq, and_assoc, List.length_take]
  exact and_congr_right fun seven => and_iff_right (by omega)

theorem massArgs_iff (args : List Text) : (args.length == 1 && numberForm (args.getD 0 [])) = true ↔
    ∃ n, args = [n] ∧ 1 ≤ n.length ∧ n.length ≤ 7 ∧ n.all isDigit = true := by
  simp only [oneArg_iff, numberForm_iff]

theorem periodArgs_iff (args : List Text) : (args.length == 1 && periodForm (args.getD 0 [])) = true ↔
    ∃ n, args = [n] ∧
      n.length = 7 ∧ (n.take 2).all isDigit = true ∧ n.getD 2 0 = 0x2F ∧ (n.drop 3).all isDigit = true := by
  simp only [oneArg_iff, periodForm_iff]

theorem severityOf_iff (t : Text) (v : Severity) :
    severityOf t = some v ↔ (t, v) ∈ [(ascii "MINOR", Severity.minor), (ascii "CONDEMN", .condemn)] := by
  have apart : ascii "CONDEMN" ≠ ascii "MINOR" := by decide
  unfold severityOf
  generalize ascii "MINOR" = minor, ascii "CONDEMN" = condemn at apart
  by_cases isMinor : t = minor
  · subst isMinor
    simp [apart.symm, @eq_comm _ v]
  · by_cases isCondemn : t = condemn
    · subst isCondemn
      simp [apart, @eq_comm _ v]
    · simp [isMinor, isCondemn]

theorem severityOf_isSome (t : Text) :
    (severityOf t).isSome = true ↔ t = ascii "MINOR" ∨ t = ascii "CONDEMN" := by
  simp [Option.isSome_iff_exists, severityOf_iff, exists_or]

theorem findArgs_iff (args : List Text) :
    (args.length == 2 && (severityOf (args.getD 1 [])).isSome) = true ↔
      ∃ name sev, args = [name, sev] ∧ (sev = ascii "MINOR" ∨ sev = ascii "CONDEMN") := by
  rw [Bool.and_eq_true, beq_iff_eq, List.length_eq_two]
  constructor
  · rintro ⟨⟨name, sev, rfl⟩, formed⟩
    exact ⟨name, sev, rfl, (severityOf_isSome sev).mp formed⟩
  · rintro ⟨name, sev, rfl, formed⟩
    exact ⟨⟨name, sev, rfl⟩, (severityOf_isSome sev).mpr formed⟩

theorem findArgs_of_severity (name : Text) {sev : Text} {v : Severity} (severity : severityOf sev = some v) :
    ([name, sev].length == 2 && (severityOf ([name, sev].getD 1 [])).isSome) = true :=
  (findArgs_iff _).mpr ⟨name, sev, rfl, (severityOf_isSome sev).mp (by rw [severity]; rfl)⟩

/-! ### The refusals by the state of the unit (Table 4-4) -/

theorem Ieu.refuses_idle {u : Ieu} (other : u.state ≠ .inspecting) : u.refuses = some .errState :=
  if_pos (by simp [other])

theorem Ieu.refuses_closing {u : Ieu} (at' : u.state = .inspecting) (pending : u.closePending = true) :
    u.refuses = some .busy := by
  simp [Ieu.refuses, at', pending]

theorem Ieu.refuses_open {u : Ieu} (at' : u.state = .inspecting) (still : u.closePending = false) :
    u.refuses = none := by
  simp [Ieu.refuses, at', still]

section
variable {s : State} {r : Reply} (refused : s.ieu.refuses = some r) (args : List Text)
include refused

theorem takeMass_refused : takeMass args s = reply r s := by rw [takeMass, refused]
theorem takeFind_refused : takeFind args s = reply r s := by rw [takeFind, refused]
theorem takeClose_refused : takeClose args s = reply r s := by rw [takeClose, refused]

end

/-! ### PERIOD (R61) -/

theorem periodOf_inRange (t : Text) : (periodOf t).inRange = true ↔
    1 ≤ decValue (t.take 2) ∧ decValue (t.take 2) ≤ 12 ∧
      2000 ≤ decValue (t.drop 3) ∧ decValue (t.drop 3) ≤ 2099 := by
  simp only [Period.inRange, Bool.and_eq_true, decide_eq_true_eq, and_assoc]
  exact Iff.rfl

/-- A period in range is stored, and ends NO_PERIOD (R55, R61). -/
theorem takePeriod_stores {n : Text} (good : (periodOf n).inRange = true) (s : State) :
    takePeriod [n] s = reply .ok { s with ieu := { s.ieu with
      period := some (periodOf n)
      state := if s.ieu.state = .noPeriod then readyOrFull s.ieu.infeed s.ieu.directFault else s.ieu.state } } := by
  refine (if_pos good).trans (congrArg (reply .ok) ?_)
  cases at' : s.ieu.state <;> simp [State.withIeu, Ieu.toReady_eq, at']

theorem takePeriod_range {n : Text} (bad : ¬ (periodOf n).inRange = true) (s : State) :
    takePeriod [n] s = reply .errRange s :=
  if_neg bad

/-! ### MASS (R62) -/

theorem massClamp_eq (v : Nat) : max 1 (min 30000 v) = if v < 1 then 1 else if 30000 < v then 30000 else v := by
  split
  · omega
  · split <;> omega

theorem takeMass_weighs {s : State} {d : Docket} (taken : s.ieu.refuses = none) (work : s.ieu.work = some d)
    (n : Text) : takeMass [n] s =
      reply (.okMass (max 1 (min 30000 (decValue n)))) { s with ieu := { s.ieu with
        work := some { d with mass := some (max 1 (min 30000 (decValue n))) } } } := by
  rw [takeMass, taken, work]
  rfl

/-! ### FIND (R63) -/

theorem FindingCode.ofName_name (c : FindingCode) : FindingCode.ofName c.name = some c := by cases c <;> decide

theorem FindingCode.ofName_unknown {t : Text} (unknown : ∀ c : FindingCode, c.name ≠ t) :
    FindingCode.ofName t = none :=
  List.find?_eq_none.mpr fun c _ => by simpa using unknown c

theorem storedSeverity_eq (c : FindingCode) (v : Severity) : storedSeverity c v =
    if c = .fire ∨ c = .arcBurn ∨ c = .bulge ∨ c = .neckCrack then .condemn else v := by
  simp [storedSeverity, FindingCode.alwaysCondemn, or_assoc]

section
variable {s : State} (taken : s.ieu.refuses = none)
include taken

theorem takeFind_unknown {name : Text} (unknown : ∀ c : FindingCode, c.name ≠ name) (sev : Text) :
    takeFind [name, sev] s = reply .errCode s := by
  have none' : FindingCode.ofName ([name, sev].getD 0 []) = none := FindingCode.ofName_unknown unknown
  rw [takeFind, taken, none']

theorem takeFind_known {d : Docket} (work : s.ieu.work = some d) {sev : Text} {v : Severity}
    (severity : severityOf sev = some v) (c : FindingCode) :
    takeFind [c.name, sev] s =
      if 6 ≤ d.findings.length then reply .full s
      else reply .ok { s with ieu := { s.ieu with work := some { d with
        findings := d.findings ++ [{ code := c, severity := some (storedSeverity c v) }] } } } := by
  have code : FindingCode.ofName ([c.name, sev].getD 0 []) = some c := FindingCode.ofName_name c
  have named : severityOf ([c.name, sev].getD 1 []) = some v := severity
  rw [takeFind, taken, code, named, Ieu.findings, work]
  rfl

end

/-! ### CANCEL and CLEAR (R64, R65) -/

/-- The unit once its docket in work is cancelled (R55, R64). -/
def Ieu.cancelled (u : Ieu) : Ieu :=
  { u with work := none, closePending := false, state := readyOrFull u.infeed u.directFault }

theorem takeCancel_idle (args : List Text) {s : State} (other : s.ieu.state ≠ .inspecting) :
    takeCancel args s = reply .errState s :=
  if_neg (by simp [other])

theorem takeCancel_inspecting (args : List Text) {s : State} (at' : s.ieu.state = .inspecting) : takeCancel args s =
    reply .ok { (if s.ieu.closePending then reply .errCancelled s else s) with ieu := s.ieu.cancelled } := by
  have kept : (if s.ieu.closePending then reply .errCancelled s else s).ieu = s.ieu := by
    split
    · rw [reply_eq]
    · rfl
  refine (if_pos (by rw [at']; rfl)).trans ?_
  simp only [kept, Ieu.toReady_eq]
  rfl

theorem takeCancel_open (args : List Text) {s : State} (at' : s.ieu.state = .inspecting)
    (still : s.ieu.closePending = false) : takeCancel args s = reply .ok { s with ieu := s.ieu.cancelled } := by
  rw [takeCancel_inspecting args at', still]
  rfl

/-- A pending CLOSE is answered ahead of the CANCEL that ends it (R64). -/
theorem takeCancel_closing (args : List Text) {s : State} (at' : s.ieu.state = .inspecting)
    (pending : s.ieu.closePending = true) :
    takeCancel args s = reply .ok { reply .errCancelled s with ieu := s.ieu.cancelled } := by
  rw [takeCancel_inspecting args at', pending]
  rfl

theorem repliedWith_room (r : Reply) {p : Ports} (room : p.waiting.length < 4) :
    repliedWith r p = p.waiting ++ [r] :=
  if_pos room

theorem takeClear_standing (args : List Text) {s : State} (fault : s.ieu.directFault = true) : takeClear args s =
    reply .ok { s with ieu := { s.ieu with
      directFault := false
      state := if s.ieu.state = .infeedFull then readyOrFull s.ieu.infeed false else s.ieu.state } } := by
  refine (if_pos fault).trans (congrArg (reply .ok) ?_)
  rw [Ieu.refresh_eq]
  simp [State.withIeu]

theorem takeClear_none (args : List Text) {s : State} (none' : s.ieu.directFault = false) :
    takeClear args s = reply .errNoFault s :=
  if_neg (by simp [none'])

end Sys2Proof.Machine
end

section
/-! What each entry of the terminal does, whole (R60 to R65, Table 4-4), and the two statements about them. -/

namespace Sys2Proof.Machine

/-- Each command of the terminal is a line that the checks of R60 stand ahead of. -/
theorem exec_checkedEntry {l : PortLine} {i : Instr}
    (mem : i ∈ [Instr.period l, .mass l, .find l, .close l, .cancel l, .clearEntry l, .unknownKeyword l]) :
    ∃ form act, ∀ s, exec i s = .next (terminalLine l (entryChecks form act) s) := by
  simp only [List.mem_cons, List.not_mem_nil, or_false] at mem
  rcases mem with rfl | rfl | rfl | rfl | rfl | rfl | rfl <;> exact ⟨_, _, fun _ => rfl⟩

section
variable {l : PortLine} {s : State} (live : LiveEntry l s) (clean : (assembleLine 32 l).badAt = none)
include live clean

/-! ### PERIOD (R61) -/

section
variable {n : Text} (entered : entryArgs (assembleLine 32 l) = [n])
  (formed : n.length = 7 ∧ (n.take 2).all isDigit = true ∧ n.getD 2 0 = 0x2F ∧ (n.drop 3).all isDigit = true)
include entered formed

theorem execPeriod_stores (good : (periodOf n).inRange = true) : exec (.period l) s = .next
    { lineAnswered l .ok s with ieu := { s.ieu with
      period := some (periodOf n)
      state := if s.ieu.state = .noPeriod then readyOrFull s.ieu.infeed s.ieu.directFault else s.ieu.state } } := by
  have form := (periodArgs_iff _).mpr ⟨n, rfl, formed⟩
  refine congrArg Host.Outcome.next ((checkedEntry_taken live clean entered form).trans ?_)
  rw [takePeriod_stores good, reply_eq]
  rfl

theorem execPeriod_range (bad : ¬ (periodOf n).inRange = true) :
    exec (.period l) s = .next (lineAnswered l .errRange s) :=
  congrArg Host.Outcome.next (checkedEntry_answered live clean entered
    ((periodArgs_iff _).mpr ⟨n, rfl, formed⟩) (takePeriod_range bad _))

end

/-! ### MASS (R62) -/

section
variable {n : Text} (entered : entryArgs (assembleLine 32 l) = [n])
  (formed : 1 ≤ n.length ∧ n.length ≤ 7 ∧ n.all isDigit = true)
include entered formed

theorem execMass_refused {r : Reply} (refused : s.ieu.refuses = some r) :
    exec (.mass l) s = .next (lineAnswered l r s) :=
  congrArg Host.Outcome.next (checkedEntry_answered live clean entered
    ((massArgs_iff _).mpr ⟨n, rfl, formed⟩) (takeMass_refused (s := lineHeld l s) refused _))

theorem execMass_weighs {d : Docket} (taken : s.ieu.refuses = none) (work : s.ieu.work = some d) {v : Nat}
    (value : max 1 (min 30000 (decValue n)) = v) : exec (.mass l) s = .next
      { lineAnswered l (.okMass v) s with ieu := { s.ieu with work := some { d with mass := some v } } } := by
  have form := (massArgs_iff _).mpr ⟨n, rfl, formed⟩
  refine congrArg Host.Outcome.next ((checkedEntry_taken live clean entered form).trans ?_)
  rw [takeMass_weighs (s := lineHeld l s) taken work, value, reply_eq]
  rfl

end

/-! ### FIND (R63) -/

section
variable {name sev : Text} {v : Severity} (entered : entryArgs (assembleLine 32 l) = [name, sev])
  (severity : severityOf sev = some v)
include entered severity

theorem execFind_answered {r : Reply} (answer : takeFind [name, sev] (lineHeld l s) = reply r (lineHeld l s)) :
    exec (.find l) s = .next (lineAnswered l r s) :=
  congrArg Host.Outcome.next (checkedEntry_answered live clean entered (findArgs_of_severity name severity) answer)

theorem execFind_refused {r : Reply} (refused : s.ieu.refuses = some r) :
    exec (.find l) s = .next (lineAnswered l r s) :=
  execFind_answered live clean entered severity (takeFind_refused (s := lineHeld l s) refused _)

theorem execFind_unknown (taken : s.ieu.refuses = none) (unknown : ∀ c : FindingCode, c.name ≠ name) :
    exec (.find l) s = .next (lineAnswered l .errCode s) :=
  execFind_answered live clean entered severity (takeFind_unknown (s := lineHeld l s) taken unknown sev)

section
variable {c : FindingCode} {d : Docket} (code : c.name = name) (taken : s.ieu.refuses = none)
  (work : s.ieu.work = some d)
include code taken work

theorem execFind_full (six : 6 ≤ d.findings.length) : exec (.find l) s = .next (lineAnswered l .full s) := by
  refine execFind_answered live clean entered severity ?_
  rw [← code, takeFind_known (s := lineHeld l s) taken work severity, if_pos six]

theorem execFind_enters (few : d.findings.length < 6) : exec (.find l) s = .next
    { lineAnswered l .ok s with ieu := { s.ieu with work := some { d with
      findings := d.findings ++ [{ code := c, severity := some (storedSeverity c v) }] } } } := by
  have form := findArgs_of_severity name severity
  refine congrArg Host.Outcome.next ((checkedEntry_taken live clean entered form).trans ?_)
  rw [← code, takeFind_known (s := lineHeld l s) taken work severity, if_neg (Nat.not_le.mpr few), reply_eq]
  rfl

end

end

/-! ### CLOSE, CANCEL and CLEAR (R64 to R66) -/

section
variable (entered : entryArgs (assembleLine 32 l) = [])
include entered

theorem execClose_refused {r : Reply} (refused : s.ieu.refuses = some r) :
    exec (.close l) s = .next (lineAnswered l r s) :=
  congrArg Host.Outcome.next (checkedEntry_answered live clean entered rfl
    (takeClose_refused (s := lineHeld l s) refused _))

theorem execCancel_idle (other : s.ieu.state ≠ .inspecting) :
    exec (.cancel l) s = .next (lineAnswered l .errState s) :=
  congrArg Host.Outcome.next (checkedEntry_answered live clean entered rfl
    (takeCancel_idle [] (s := lineHeld l s) other))

theorem execCancel_open (at' : s.ieu.state = .inspecting) (still : s.ieu.closePending = false) :
    exec (.cancel l) s = .next { lineAnswered l .ok s with ieu := s.ieu.cancelled } := by
  refine congrArg Host.Outcome.next ((checkedEntry_taken live clean entered rfl).trans ?_)
  rw [takeCancel_open [] (s := lineHeld l s) at' still, reply_eq]
  rfl

theorem execCancel_closing (at' : s.ieu.state = .inspecting) (pending : s.ieu.closePending = true)
    (room : s.ports.waiting.length < 3) : exec (.cancel l) s = .next
      { s with
        ports := { s.ports with lineB := assembleLine 32 l, waiting := s.ports.waiting ++ [.errCancelled, .ok] }
        ieu := s.ieu.cancelled } := by
  have two : repliedWith .ok (lineAnswered l .errCancelled s).ports = s.ports.waiting ++ [.errCancelled, .ok] := by
    have one : (lineAnswered l .errCancelled s).ports.waiting = s.ports.waiting ++ [.errCancelled] :=
      repliedWith_room .errCancelled (by omega)
    rw [repliedWith_room .ok (by rw [one, List.length_append, List.length_singleton]; omega), one]
    exact List.append_assoc _ _ _
  refine congrArg Host.Outcome.next ((checkedEntry_taken live clean entered rfl).trans ?_)
  rw [takeCancel_closing [] (s := lineHeld l s) at' pending, reply_lineHeld, reply_eq, ← two]
  rfl

theorem execClear_standing (fault : s.ieu.directFault = true) : exec (.clearEntry l) s = .next
    { lineAnswered l .ok s with ieu := { s.ieu with
      directFault := false
      state := if s.ieu.state = .infeedFull then readyOrFull s.ieu.infeed false else s.ieu.state } } := by
  refine congrArg Host.Outcome.next ((checkedEntry_taken live clean entered rfl).trans ?_)
  rw [takeClear_standing [] (s := lineHeld l s) fault, reply_eq]
  rfl

theorem execClear_none (none' : s.ieu.directFault = false) :
    exec (.clearEntry l) s = .next (lineAnswered l .errNoFault s) :=
  congrArg Host.Outcome.next (checkedEntry_answered live clean entered rfl
    (takeClear_none [] (s := lineHeld l s) none'))

end

end

/-! ### The statements -/

/-- Settles O53: the rules of MASS and CLEAR. -/
theorem massAndClearEntries : Obligations.MassAndClearEntries := by
  intro l s role free running handed clean b ports
  have live : LiveEntry l s := ⟨role, handed, running, free⟩
  refine ⟨fun d n at' still work entered short long digits => ?_, fun unformed => ?_,
    execClear_standing live clean, execClear_none live clean, rfl, rfl⟩
  · exact ⟨execMass_weighs live clean entered ⟨short, long, digits⟩ (Ieu.refuses_open at' still) work
      (massClamp_eq _), rfl⟩
  · exact congrArg Host.Outcome.next (checkedEntry_malformed live
      (.inr fun formed => unformed ((massArgs_iff _).mp formed)))

/-- Settles O54: BUSY and ERR SYNTAX by the checks ahead of every entry, the rest entry by entry. -/
theorem terminalEntries : Obligations.TerminalEntries := by
  intro l s role handed _ _ answers idle closing taking periodText massText
  refine ⟨fun i mem shut => ?_, fun running free => ?_⟩
  · obtain ⟨form, act, checked⟩ := exec_checkedEntry mem
    exact (checked s).trans (congrArg Host.Outcome.next (checkedEntry_shut role handed shut))
  have live : LiveEntry l s := ⟨role, handed, running, free⟩
  refine ⟨?_, fun bad i mem => ?_, fun clean => ⟨fun unformed => ?_, fun unformed => ?_, fun unformed => ?_,
    fun more => ?_, fun n entered formed => ?_, fun n entered formed => ?_, fun name sev v entered named => ?_,
    fun entered => ?_⟩⟩
  · exact congrArg Host.Outcome.next (checkedEntry_malformed live (.inr Bool.false_ne_true))
  · obtain ⟨form, act, checked⟩ := exec_checkedEntry (List.mem_append_left [.unknownKeyword l] mem)
    exact (checked s).trans (congrArg Host.Outcome.next (checkedEntry_malformed live (.inl bad)))
  · exact congrArg Host.Outcome.next (checkedEntry_malformed live
      (.inr fun formed => unformed ((periodArgs_iff _).mp formed)))
  · exact congrArg Host.Outcome.next (checkedEntry_malformed live
      (.inr fun formed => unformed ((massArgs_iff _).mp formed)))
  · exact congrArg Host.Outcome.next (checkedEntry_malformed live
      (.inr fun formed => unformed ((findArgs_iff _).mp formed)))
  · have unformed (act : List Text → State → State) :
        terminalLine l (entryChecks (fun a => a.isEmpty) act) s = lineAnswered l .errSyntax s :=
      checkedEntry_malformed live (.inr fun none' => more (List.isEmpty_iff.mp none'))
    exact ⟨congrArg Host.Outcome.next (unformed _), congrArg Host.Outcome.next (unformed _),
      congrArg Host.Outcome.next (unformed _)⟩
  · exact ⟨fun good => execPeriod_stores live clean entered formed ((periodOf_inRange n).mpr good),
      fun bad => execPeriod_range live clean entered formed (mt (periodOf_inRange n).mp bad)⟩
  · exact ⟨fun other => execMass_refused live clean entered formed (Ieu.refuses_idle other),
      fun ⟨at', pending⟩ => execMass_refused live clean entered formed (Ieu.refuses_closing at' pending)⟩
  · have severity := (severityOf_iff sev v).mpr named
    refine ⟨fun other => execFind_refused live clean entered severity (Ieu.refuses_idle other),
      fun ⟨at', pending⟩ => execFind_refused live clean entered severity (Ieu.refuses_closing at' pending),
      fun ⟨at', still⟩ => execFind_unknown live clean entered severity (Ieu.refuses_open at' still),
      fun c d ⟨at', still⟩ code work =>
        ⟨execFind_full live clean entered severity code (Ieu.refuses_open at' still) work, ?_⟩⟩
    rw [← storedSeverity_eq]
    exact execFind_enters live clean entered severity code (Ieu.refuses_open at' still) work
  · refine ⟨fun other => execClose_refused live clean entered (Ieu.refuses_idle other),
      fun ⟨at', pending⟩ => execClose_refused live clean entered (Ieu.refuses_closing at' pending),
      execCancel_idle live clean entered, fun ⟨at', still⟩ => ?_,
      fun ⟨at', pending⟩ => execCancel_closing live clean entered at' pending⟩
    rw [execCancel_open live clean entered at' still, Ieu.cancelled, ← still]
    rfl

end Sys2Proof.Machine
end

section
/-! EVALUATE and the joining of a queue (R34, R66 to R71, Table 4-5): the coverage, the dates, the class fields, the
intent with the first applying cause, and the docket that joins at once or waits. -/

namespace Sys2Proof.Machine

/-! ### Coverage, by the table as the last complete round left it (R34, R66) -/

theorem State.settledCard_eq (s : State) (a : Addr) : s.settledCard a =
    if s.lif.round.cardFrom = some a then s.lif.round.cardBefore else (s.entry a).card := by
  simp [State.settledCard]

theorem State.coveredSettled_iff (s : State) (d : Docket) : s.coveredSettled d = true ↔ ∃ a c h,
    (if s.lif.round.cardFrom = some a then s.lif.round.cardBefore else (s.entry a).card) = some c ∧
    c.role = .test ∧ c.head = some h ∧ d.testPressure ≤ h.rating ∧ d.waterCapacity ≤ h.capacity := by
  rw [State.coveredSettled, List.any_eq_true]
  refine exists_congr fun a => ?_
  rw [← State.settledCard_eq]
  cases s.settledCard a with
  | none => simp
  | some c => simp [mem_allAddrs, Card.covers_iff]

/-! ### Dates (R69) -/

/-- Two last digits name one year of the span from 90 years before to 9 after. -/
theorem expandYear_span (yc yy : Nat) (low : 2000 ≤ yc) (two : yy ≤ 99) :
    yc - 90 ≤ expandYear yc yy ∧ expandYear yc yy ≤ yc + 9 ∧ expandYear yc yy % 100 = yy := by
  unfold expandYear
  omega

/-- The month of the last test, counted from year 0. -/
def lastTestMonth (per : Period) (d : Docket) : Nat := expandYear per.year d.lastYear * 12 + d.lastMonth

theorem badDate_iff (per : Period) (d : Docket) : badDate per d = true ↔
    per.year * 12 + per.month < lastTestMonth per d ∨
    expandYear per.year d.lastYear < expandYear per.year d.mfgYear ∨ per.year < expandYear per.year d.mfgYear := by
  have elapsed : elapsedMonths per d < 0 ↔ per.year * 12 + per.month < lastTestMonth per d := by
    unfold elapsedMonths lastTestMonth
    omega
  simp [badDate, elapsed, or_assoc]

/-- Past a good date the months elapsed are a plain difference. -/
theorem notDue_iff (p : Params) (per : Period) (c : ClassEntry) (d : Docket) : notDue p per c d = true ↔
    badDate per d = false ∧ c.defined = true ∧
      per.year * 12 + per.month - lastTestMonth per d < c.intervalYears * 12 - p.earlyWindow := by
  have elapsed (good : badDate per d = false) :
      elapsedMonths per d < ((c.intervalYears * 12 - p.earlyWindow : Nat) : Int) ↔
        per.year * 12 + per.month - lastTestMonth per d < c.intervalYears * 12 - p.earlyWindow := by
    rw [← Bool.not_eq_true, badDate_iff] at good
    unfold elapsedMonths
    unfold lastTestMonth at good ⊢
    omega
  simp only [notDue, Bool.and_eq_true, Bool.not_eq_true', decide_eq_true_eq, and_assoc]
  exact and_congr_right fun good => and_congr_right fun _ => elapsed good

/-! ### The evaluated docket (R66 to R68, R70) -/

theorem decideIntent_cons (b : Bool) (i : Intent) (c : Cause) (rows : List (Bool × Intent × Cause)) :
    decideIntent ((b, i, c) :: rows) = if b = true then (i, some c) else decideIntent rows := by
  cases b <;> rfl

/-- The rows of Table 4-5, each by what it asks. -/
theorem decideIntent_intentRows (p : Params) (per : Period) (c : ClassEntry) (lot : Option (Nat × LotEntry))
    (hit : Option Way) (covered : Bool) (mass : Nat) (d : Docket) :
    decideIntent (intentRows p per c (lot.map (·.2)) hit covered mass d) =
      if d.findings.any (fun f => f.severity == some .condemn) then (.scrap, some .findingCondemn)
      else if ∃ x, lot = some x ∧ x.2.condemn = true then (.scrap, some .lotCondemn)
      else if c.defined = true ∧ c.massLossLimit < massLossOf d.tare mass then (.scrap, some .massLoss)
      else if p.residualLimit < mass - d.tare then (.ret, some .notEmpty)
      else if ∃ x, lot = some x ∧ x.2.condemn = false then (.hold, some .lotHold)
      else if ∃ w, hit = some w ∧ w.disposition = .scrapped then (.hold, some .historyScrapped)
      else if badDate per d = true then (.hold, some .badDate)
      else if c.defined = false then (.hold, some .unknownClass)
      else if notDue p per c d = true then (.passThrough, some .notDue)
      else if covered = false then (.hold, some .noHead)
      else (.test, none) := by
  simp only [intentRows, decideIntent_cons]
  refine if_congr Iff.rfl rfl (if_congr ?lotCondemn rfl (if_congr (by simp) rfl (if_congr (by simp) rfl
    (if_congr ?lotHold rfl (if_congr ?scrapped rfl (if_congr Iff.rfl rfl (if_congr (by simp) rfl
    (if_congr Iff.rfl rfl (if_congr (by simp) rfl rfl)))))))))
  case lotCondemn => cases lot <;> simp
  case lotHold => cases lot <;> simp
  case scrapped => cases hit <;> simp

theorem classStep_eq (per : Period) (c : ClassEntry) (d : Docket) : classStep per c d = { d with
    period := some per
    ratioLimit := if c.defined then some c.ratioLimit else d.ratioLimit
    holdTime := if c.defined then some c.holdTime else d.holdTime
    ree := if c.defined = true ∧ c.reeApplies = false then none else d.ree } := by
  unfold classStep
  cases c.defined
  · rfl
  · cases c.reeApplies <;> rfl

/-- The intent and the reason that EVALUATE gives a docket (R70). -/
def State.decision (s : State) (per : Period) (mass : Nat) (hit : Option Way) (d : Docket) : Intent × Option Cause :=
  decideIntent (intentRows s.params per (classOf s.params d) ((lotMatch s.params.lots d).map (·.2)) hit
    (s.coveredSettled d) mass d)

/-- What EVALUATE makes of a docket: its decision reads nothing that the class entry has changed. -/
theorem evaluatedDocket_eq (s : State) (per : Period) (mass : Nat) (hit : Option Way) (d : Docket) :
    evaluatedDocket s per mass hit d = { d with
      period := some per
      massLoss := some (massLossOf d.tare mass)
      ratioLimit := if (classOf s.params d).defined then some (classOf s.params d).ratioLimit else d.ratioLimit
      holdTime := if (classOf s.params d).defined then some (classOf s.params d).holdTime else d.holdTime
      ree := if (classOf s.params d).defined = true ∧ (classOf s.params d).reeApplies = false then none else d.ree
      retest := match hit with | some w => decide (1 ≤ w.invalidCount) | none => false
      lotEntry := (lotMatch s.params.lots d).map (·.1)
      intent := some (s.decision per mass hit d).1
      reason := (s.decision per mass hit d).2 } := by
  unfold evaluatedDocket
  dsimp only
  rw [classStep_eq]
  rfl

/-! ### Joining a queue (R4, R71) -/

theorem Ieu.canJoin_iff (u : Ieu) (d : Docket) : u.canJoin d = true ↔
    u.closePending = true ∧ u.state = .inspecting ∧ u.stage = .idle ∧
      (d.intent = some .test → u.infeed.length < 8) ∧
      (d.intent ≠ some .test → u.direct.length < 4 ∧ u.infeedCh ≠ .pulsing .infeedDivert ∧
        u.infeedCh ≠ .owed .infeedDivert) := by
  show _ ↔ _ ∧ _ ∧ _ ∧ (_ → u.infeed.length < Config.infeedCap) ∧ (_ → u.direct.length < Config.directCap ∧ _)
  by_cases test : d.intent = some .test
  · simp [Ieu.canJoin, test, and_assoc]
  · simp [Ieu.canJoin, Channel.carries, test, and_assoc]

/-- A docket just evaluated may join as its intent and the channels allow. -/
theorem Ieu.canJoin_evaluated {u : Ieu} {e : Docket} {i : Intent} (at' : u.state = .inspecting)
    (intent : e.intent = some i) : ({ u with work := some e, closePending := true } : Ieu).canJoin e = true ↔
      u.stage = .idle ∧ (i = .test → u.infeed.length < 8) ∧
      (i ≠ .test → u.direct.length < 4 ∧ u.infeedCh ≠ .pulsing .infeedDivert ∧ u.infeedCh ≠ .owed .infeedDivert) := by
  simp only [Ieu.canJoin_iff, at', intent, ne_eq, Option.some.injEq, true_and]

/-- Joining reads neither the docket in work nor the pending CLOSE, and no line that a port holds. -/
theorem JoinsItsQueue.congr {d : Docket} {s u t : State} (joins : JoinsItsQueue d u t)
    (ieu : ∃ w p, u.ieu = { s.ieu with work := w, closePending := p }) (waiting : u.ports.waiting = s.ports.waiting)
    (txq : u.txq = s.txq) (outside : u.outsideIntake = s.outsideIntake) : JoinsItsQueue d s t := by
  obtain ⟨w, p, ieu⟩ := ieu
  obtain ⟨unit, replies, queue, frame⟩ := joins
  rw [ieu] at unit replies
  rw [repliedWith, waiting] at replies
  exact ⟨unit, replies, queue.trans txq, frame.trans outside⟩

section
variable {s : State} {d : Docket} (work : s.ieu.work = some d)
include work

theorem tryJoin_joins (can : s.ieu.canJoin d = true) : JoinsItsQueue d s (tryJoin s) ∧
    (tryJoin s).history = s.history ∧ (tryJoin s).ports.lineB = s.ports.lineB := by
  obtain ⟨-, at', -⟩ := (s.ieu.canJoin_iff d).mp can
  rw [tryJoin, work]
  dsimp only
  rw [if_pos can]
  exact joinDocket_joins d s at'

theorem tryJoin_waits (cannot : ¬ s.ieu.canJoin d = true) : tryJoin s = s := by
  rw [tryJoin, work]
  exact if_neg cannot

end

/-! ### CLOSE (R66, R81; log 37) -/

section
variable {s : State} {d : Docket} {per : Period} (taken : s.ieu.refuses = none) (work : s.ieu.work = some d)
  (period : s.ieu.period = some per) (args : List Text)
include taken work period

theorem takeClose_noMass (none' : d.mass = none) : takeClose args s = reply .errNoMass s := by
  rw [takeClose, taken, work, period]
  dsimp only
  rw [none']

theorem takeClose_mass {m : Nat} (mass : d.mass = some m) : takeClose args s =
    if s.lif.state == .addressConflict then reply .busy s else tryJoin (evaluate per m d s) := by
  rw [takeClose, taken, work, period]
  dsimp only
  rw [mass]

end

/-- A CLOSE that evaluates leaves the docket evaluated and the CLOSE pending, and then joins if it can (R66, R71). -/
theorem execClose_evaluates {l : PortLine} {s : State} {d : Docket} {per : Period} {m : Nat} (live : LiveEntry l s)
    (clean : (assembleLine 32 l).badAt = none) (entered : entryArgs (assembleLine 32 l) = [])
    (taken : s.ieu.refuses = none) (work : s.ieu.work = some d) (period : s.ieu.period = some per)
    (mass : d.mass = some m) (reads : s.lif.state ≠ .addressConflict) :
    exec (.close l) s = .next (tryJoin (evaluate per m d (lineHeld l s))) := by
  refine congrArg Host.Outcome.next ((checkedEntry_taken live clean entered rfl).trans ?_)
  rw [takeClose_mass (s := lineHeld l s) taken work period [] mass, if_neg]
  simpa [lineHeld] using reads

/-- Settles O55: CLOSE, the coverage, the dates and DOCKET_JOIN, each by its rules above. -/
theorem closeEvaluatesAndJoins : Obligations.CloseEvaluatesAndJoins := by
  refine ⟨fun l d per s role free handed clean entered at' still work period => ?_,
    fun d s => s.coveredSettled_iff d, fun yc yy low _ two => expandYear_span yc yy low two,
    fun p per c d => ⟨badDate_iff per d, notDue_iff p per c d⟩, fun d s role free work => ?_⟩
  · have live : LiveEntry l s := ⟨role, handed, by rw [at']; decide, free⟩
    have taken : (lineHeld l s).ieu.refuses = none := Ieu.refuses_open at' still
    refine ⟨fun none' => ?_, fun weighed conflict => ?_, fun m mass reads => ?_⟩
    · exact congrArg Host.Outcome.next (checkedEntry_answered live clean entered rfl
        (takeClose_noMass taken work period [] none'))
    · obtain ⟨m, mass⟩ := Option.isSome_iff_exists.mp weighed
      exact congrArg Host.Outcome.next (checkedEntry_answered live clean entered rfl
        ((takeClose_mass taken work period [] mass).trans (if_pos (beq_iff_eq.mpr conflict))))
    · intro cls lot look loss decided joinable
      have rule : s.decision per m look.2 d = decided := decideIntent_intentRows _ _ _ _ _ _ _ _
      have evaluated := evaluatedDocket_eq s per m look.2 d
      rw [rule] at evaluated
      have can : (evaluate per m d (lineHeld l s)).ieu.canJoin (evaluatedDocket s per m look.2 d) = true ↔ joinable :=
        Ieu.canJoin_evaluated (e := evaluatedDocket s per m look.2 d) (i := decided.1) at' (by rw [evaluated])
      refine ⟨_, _, execClose_evaluates live clean entered taken work period mass reads, evaluated, ?_,
        fun yes => ?_, fun no => ?_⟩
      · by_cases yes : joinable
        · exact (tryJoin_joins rfl (can.mpr yes)).2.1
        · rw [tryJoin_waits rfl (mt can.mp yes)]
          rfl
      · exact (tryJoin_joins rfl (can.mpr yes)).1.congr ⟨_, _, rfl⟩ rfl rfl rfl
      · rw [tryJoin_waits rfl (mt can.mp no)]
        exact ⟨rfl, rfl, rfl, rfl⟩
  · have acts : s.ieuActs = true := (ieuActs_iff s).mpr ⟨role, free⟩
    have tries : exec .docketJoin s = .next (tryJoin s) := if_pos acts
    intro joinable
    have can : s.ieu.canJoin d = true ↔ joinable := s.ieu.canJoin_iff d
    refine ⟨fun yes => ⟨_, tries, tryJoin_joins work (can.mpr yes)⟩, fun no => ?_⟩
    rw [tries, tryJoin_waits work (mt can.mp no)]

end Sys2Proof.Machine
end

section
/-! The numeric value of a serial (R78) and the lot hold match that compares it (R77, R79). -/

namespace Sys2Proof.Machine

/-! ### Runs of digits (R78) -/

/-- The trailing run of a text that ends in a run of digits, where what stands before the run ends in no digit. -/
theorem trailingDigits_append {before run : Text} (digits : run.all isDigit = true)
    (stop : ∀ c, before.getLast? = some c → isDigit c = false) : trailingDigits (before ++ run) = run := by
  have ends : before.reverse.takeWhile isDigit = [] := by
    rw [← List.head?_reverse] at stop
    cases h : before.reverse with
    | nil => rfl
    | cons c rest => exact List.takeWhile_cons_of_neg (by simp [stop c (by rw [h]; rfl)])
  have taken : ∀ c ∈ run.reverse, isDigit c = true := fun c hc =>
    List.all_eq_true.mp digits c (List.mem_reverse.mp hc)
  rw [trailingDigits, List.reverse_append, List.takeWhile_append_of_pos taken, ends, List.append_nil,
    List.reverse_reverse]

theorem trailingDigits_all (t : Text) : ∀ c ∈ trailingDigits t, isDigit c = true := fun _ hc =>
  List.mem_takeWhile_imp (List.mem_reverse.mp hc)

theorem decValue_concat (t : Text) (c : Byte) : decValue (t ++ [c]) = decValue t * 10 + (c.toNat - 0x30) :=
  List.foldl_concat ..

theorem decValue_lt {t : Text} (digits : ∀ c ∈ t, isDigit c = true) : decValue t < 10 ^ t.length := by
  induction t using List.reverseRecOn with
  | nil => exact Nat.one_pos
  | append_singleton t c ih =>
    have front : decValue t < 10 ^ t.length := ih fun x hx => digits x (List.mem_append_left _ hx)
    have last : c.toNat ≤ 0x39 := by
      have := digits c (by simp)
      simp only [isDigit, Bool.and_eq_true, decide_eq_true_eq] at this
      exact this.2
    rw [decValue_concat, List.length_append, List.length_singleton, Nat.pow_succ]
    omega

/-- The last nine digits of a run, or the whole of a shorter one, make a value below 10^9. -/
theorem decValue_lastNine_le {run : Text} (digits : ∀ c ∈ run, isDigit c = true) :
    decValue (run.drop (run.length - 9)) ≤ 999999999 := by
  have nine : (run.drop (run.length - 9)).length ≤ 9 := by
    rw [List.length_drop]
    omega
  have below : decValue (run.drop (run.length - 9)) < 10 ^ 9 :=
    (decValue_lt fun c hc => digits c (List.mem_of_mem_drop hc)).trans_le (Nat.pow_le_pow_right (by decide) nine)
  omega

theorem serialValue_le {t : Text} {v : Nat} (value : serialValue t = some v) : v ≤ 999999999 := by
  obtain ⟨-, last⟩ := Option.ite_none_left_eq_some.mp value
  obtain rfl := Option.some.inj last
  exact decValue_lastNine_le (trailingDigits_all t)

theorem serialValue_append {before run : Text} (digits : run.all isDigit = true)
    (stop : ∀ c, before.getLast? = some c → isDigit c = false) :
    serialValue (before ++ run) = if run = [] then none else some (decValue (run.drop (run.length - 9))) := by
  rw [serialValue, trailingDigits_append digits stop]
  simp only [List.isEmpty_iff]

theorem decValue_eq_foldl (t : Text) : decValue t = t.foldl (fun v c => 10 * v + (c.toNat - 0x30)) 0 := by
  simp only [decValue, Nat.mul_comm]

/-! ### The lot hold match (R79) -/

@[simp] theorem fieldMatches_iff {α : Type} [BEq α] [LawfulBEq α] (o : Option α) (v : α) :
    fieldMatches o v = true ↔ ∀ x, o = some x → v = x := by
  cases o with
  | none => simp [fieldMatches]
  | some x =>
    simp only [fieldMatches, beq_iff_eq, Option.some.injEq, forall_eq']
    exact eq_comm

theorem lotEntryMatches_iff (e : LotEntry) (d : Docket) : lotEntryMatches e d = true ↔ e.valid = true ∧
    (∀ m, e.mfr = some m → d.mfr = m) ∧ (∀ y, e.mfgYear = some y → d.mfgYear = y) ∧
    (∀ c, e.cls = some c → d.cls = c) ∧
    (∀ lo hi, e.serial = some (lo, hi) → ∃ v, serialValue d.serial = some v ∧ lo ≤ v ∧ v ≤ hi) := by
  simp only [lotEntryMatches, Bool.and_eq_true, fieldMatches_iff, and_assoc]
  refine and_congr_right fun _ => and_congr_right fun _ => and_congr_right fun _ => and_congr_right fun _ => ?_
  cases e.serial with
  | none => simp
  | some range => cases serialValue d.serial <;> simp [Prod.ext_iff]

theorem lotMatch_eq_none_iff (lots : List LotEntry) (d : Docket) :
    lotMatch lots d = none ↔ ∀ e ∈ lots, lotEntryMatches e d = false := by
  simp only [lotMatch, Option.map_eq_none_iff, List.find?_eq_none, Prod.forall, List.mem_zipIdx_iff_getElem?,
    Bool.not_eq_true]
  refine forall_congr' fun e => ?_
  rw [List.mem_iff_getElem?]
  exact ⟨fun no ⟨i, at'⟩ => no i at', fun no i at' => no ⟨i, at'⟩⟩

/-- The match is the entry of the lowest index that matches. -/
theorem lotMatch_eq_some_iff (lots : List LotEntry) (d : Docket) (i : Nat) (e : LotEntry) :
    lotMatch lots d = some (i, e) ↔ lots[i]? = some e ∧ lotEntryMatches e d = true ∧
      ∀ j < i, ∀ x, lots[j]? = some x → lotEntryMatches x d = false := by
  simp only [lotMatch, Option.map_eq_some_iff, List.find?_eq_some_iff_getElem, List.getElem_zipIdx,
    List.length_zipIdx, Nat.zero_add, Bool.not_eq_true', Prod.exists, Prod.mk.injEq, List.getElem?_eq_some_iff]
  constructor
  · rintro ⟨e, i, ⟨here, i, found, ⟨rfl, rfl⟩, before⟩, rfl, rfl⟩
    exact ⟨⟨found, rfl⟩, here, fun j below x ⟨_, at'⟩ => at' ▸ before j below⟩
  · rintro ⟨⟨found, rfl⟩, here, before⟩
    exact ⟨_, i, ⟨here, i, found, ⟨rfl, rfl⟩, fun j below => before j below _ ⟨_, rfl⟩⟩, rfl, rfl⟩

/-! ### What EVALUATE records of the match (R6, R79) -/

theorem lotCondemn_mem_intentRows (p : Params) (per : Period) (c : ClassEntry) (lot : Option LotEntry)
    (hit : Option Way) (covered : Bool) (mass : Nat) (d : Docket) :
    (true, .scrap, .lotCondemn) ∈ intentRows p per c lot hit covered mass d ↔ ∃ e, lot = some e ∧ e.condemn = true := by
  cases lot <;> simp [intentRows]

theorem lotHold_mem_intentRows (p : Params) (per : Period) (c : ClassEntry) (lot : Option LotEntry)
    (hit : Option Way) (covered : Bool) (mass : Nat) (d : Docket) :
    (true, .hold, .lotHold) ∈ intentRows p per c lot hit covered mass d ↔ ∃ e, lot = some e ∧ e.condemn = false := by
  cases lot <;> simp [intentRows]

/-- Settles O56: the value of a serial by its trailing run, the entries by their fields, the match by its index, and
what EVALUATE records of it. -/
theorem serialNumericValue : Obligations.SerialNumericValue := by
  refine ⟨fun before run digits stop => ?_, fun t v => serialValue_le, lotEntryMatches_iff,
    fun lots d => ⟨lotMatch_eq_none_iff lots d, lotMatch_eq_some_iff lots d⟩,
    fun s per mass hit d c covered => ⟨?_, ?_, ?_⟩⟩
  · rw [serialValue_append digits stop, decValue_eq_foldl]
  · rw [evaluatedDocket_eq]
  · simp [lotCondemn_mem_intentRows, @exists_comm Nat]
  · simp [lotHold_mem_intentRows, @exists_comm Nat]

end Sys2Proof.Machine
end

section
/-! The serial history: what a lookup and a note make of a set (R80, R82, R84 to R86). -/

namespace Sys2Proof.Machine

/-! ### The ways of a set (R80) -/

@[simp] theorem HistSet.way_write_same (x : HistSet) (one : Bool) (w : Way) : (x.write one w).way one = w := by
  cases one <;> rfl

@[simp] theorem HistSet.way_write_other (x : HistSet) (one : Bool) (w : Way) :
    (x.write one w).way (!one) = x.way (!one) := by
  cases one <;> rfl

@[simp] theorem HistSet.write_lru1 (x : HistSet) (one : Bool) (w : Way) : (x.write one w).lru1 = x.lru1 := by
  cases one <;> rfl

@[simp] theorem HistSet.way_use (x : HistSet) (used one : Bool) : (x.use used).way one = x.way one := rfl

theorem Way.holds_iff (w : Way) (h : BitVec 16) : w.holds h = true ↔ w.valid = true ∧ w.hash = h := by
  simp [Way.holds]

theorem HistSet.findWay_holds {x : HistSet} {h : BitVec 16} {one : Bool} (found : x.findWay h = some one) :
    (x.way one).holds h = true := by
  unfold HistSet.findWay at found
  split at found
  · next held => obtain rfl := Option.some.inj found; exact held
  · obtain ⟨held, last⟩ := Option.ite_none_right_eq_some.mp found
    obtain rfl := Option.some.inj last
    exact held

theorem HistSet.findWay_eq_none_iff (x : HistSet) (h : BitVec 16) :
    x.findWay h = none ↔ ∀ one : Bool, ¬ (x.way one).holds h = true := by
  rw [Bool.forall_bool]
  unfold HistSet.findWay
  split
  · next held => simp [HistSet.way, held]
  · next free => simp [HistSet.way, free]

theorem Way.stale_iff (w : Way) (now : BitVec 32) : w.stale now = true ↔ 2147483648 ≤ (now - w.stamp).toNat := by
  simp [Way.stale]

/-! ### Lookups (R82) -/

theorem lookupSet_miss {x : HistSet} {h : BitVec 16} (now : BitVec 32) (missed : x.findWay h = none) :
    lookupSet x h now = (x, none) := by
  rw [lookupSet, missed]

section
variable {x : HistSet} {h : BitVec 16} {one : Bool} {now : BitVec 32} (found : x.findWay h = some one)
include found

theorem lookupSet_hit (current : (now - (x.way one).stamp).toNat < 2147483648) :
    lookupSet x h now = (x.use one, some (x.way one)) := by
  rw [lookupSet, found]
  exact if_neg (mt (Way.stale_iff _ _).mp (Nat.not_le.mpr current))

theorem lookupSet_stale (old : 2147483648 ≤ (now - (x.way one).stamp).toNat) :
    lookupSet x h now = (x.write one { x.way one with valid := false }, none) := by
  rw [lookupSet, found]
  exact if_pos ((Way.stale_iff _ _).mpr old)

end

/-! ### Notes (R84 to R86) -/

theorem HistSet.noteWay_found {x : HistSet} {h : BitVec 16} {one : Bool} (found : x.findWay h = some one) :
    x.noteWay h = one := by
  rw [HistSet.noteWay, found]

/-- Allocation: an invalid way, way 0 before way 1, else the one the LRU bit names (R86). -/
theorem HistSet.noteWay_allocated {x : HistSet} {h : BitVec 16} (missed : x.findWay h = none) : x.noteWay h =
    if x.way0.valid = false then false else if x.way1.valid = false then true else x.lru1 := by
  rw [HistSet.noteWay, missed]
  simp

theorem countAfter_eq (n : Note) (count : Nat) : countAfter n count =
    if n.disposition = .stamped then 0
    else if n.disposition = .returned ∧ n.invalid = true then min 2 (count + 1) else count := by
  unfold countAfter
  cases n.disposition <;> simp

/-- invalid_count of a way that a note uses, before the note: a newly allocated way starts from 0 (R85). -/
def HistSet.countBefore (x : HistSet) (h : BitVec 16) : Nat :=
  if (x.findWay h).isSome then (x.way (x.noteWay h)).invalidCount else 0

theorem noteSet_eq (x : HistSet) (n : Note) (now : BitVec 32) : noteSet x n now =
    (x.write (x.noteWay n.hash) { valid := true, hash := n.hash, disposition := n.disposition, stamp := now
                                  invalidCount := countAfter n (x.countBefore n.hash) }).use (x.noteWay n.hash) :=
  rfl

theorem noteSet_used (x : HistSet) (n : Note) (now : BitVec 32) : (noteSet x n now).way (x.noteWay n.hash) =
    { valid := true, hash := n.hash, disposition := n.disposition, stamp := now
      invalidCount := countAfter n (x.countBefore n.hash) } := by
  rw [noteSet_eq, HistSet.way_use, HistSet.way_write_same]

theorem noteSet_other (x : HistSet) (n : Note) (now : BitVec 32) :
    (noteSet x n now).way (!x.noteWay n.hash) = x.way (!x.noteWay n.hash) := by
  rw [noteSet_eq, HistSet.way_use, HistSet.way_write_other]

theorem noteSet_lru1 (x : HistSet) (n : Note) (now : BitVec 32) : (noteSet x n now).lru1 = !x.noteWay n.hash := rfl

theorem setIndex_eq (h : BitVec 16) : setIndex h = h.toNat % 16 := by
  simp [setIndex]

/-- Settles O57: lookups and notes, each by its rule above; that one way holds a hash was kept with the stores. -/
theorem historyLookupAndNotes : Obligations.HistoryLookupAndNotes := by
  refine ⟨fun x h now one found => ⟨lookupSet_hit found, fun old => ?_⟩, fun x h now => lookupSet_miss now,
    fun x h => ⟨fun one found => (Way.holds_iff _ _).mp (HistSet.findWay_holds found), ?_⟩,
    fun x n now => ?_,
    fun x h n now one => ⟨lookupSet_oneWay one h now, noteSet_oneWay one n now⟩,
    fun hist n now => ⟨fun missing => if_pos (beq_iff_eq.mpr missing), fun known => ?_⟩⟩
  · rw [lookupSet_stale found old]
    simp
  · simp only [HistSet.findWay_eq_none_iff, Way.holds_iff]
  · intro one before y
    have used : one = x.noteWay n.hash := by
      cases found : x.findWay n.hash with
      | some o => simp only [one, found, HistSet.noteWay_found found]
      | none => simp only [one, found, HistSet.noteWay_allocated found]
    have counted : before = x.countBefore n.hash := by rw [HistSet.countBefore, ← used]
    rw [used, counted, ← countAfter_eq]
    exact ⟨noteSet_used x n now, noteSet_other x n now, noteSet_lru1 x n now⟩
  · rw [← setIndex_eq]
    exact if_neg (mt beq_iff_eq.mp known)

end Sys2Proof.Machine
end

section
/-! SAFE and the response in force agree (R106 to R108, R144, R147, R151): a head is in SAFE exactly while a response is
in force, and nothing latched ranks above it. With no response in force nothing is latched, so a head that stands
outside SAFE may move to any other state but SAFE; SAFE is entered and left where a response is taken. -/

namespace Sys2Proof.Machine

section
variable {s : State}

/-! ### What the agreement rests on -/

/-- The agreement looks at the loader, the sequencer and the interlock unit alone. -/
theorem SafeMatchesResponse.of_blocks {t : State} (h : SafeMatchesResponse s) (loader : t.loader = s.loader)
    (tsq : t.tsq = s.tsq) (ilk : t.ilk = s.ilk) : SafeMatchesResponse t := by
  unfold SafeMatchesResponse
  rw [loader, tsq, ilk]
  exact h

theorem SafeMatchesResponse.of_outsideIntake {t : State} (h : SafeMatchesResponse s)
    (same : t.outsideIntake = s.outsideIntake) : SafeMatchesResponse t :=
  h.of_blocks (congrArg State.loader same :) (congrArg State.tsq same :) (congrArg State.ilk same :)

theorem SafeMatchesResponse.of_outsideDsu {t : State} (h : SafeMatchesResponse s)
    (same : t.outsideDsu = s.outsideDsu) : SafeMatchesResponse t :=
  h.of_blocks (congrArg State.loader same :) (congrArg State.tsq same :) (congrArg State.ilk same :)

/-- Both ways of a choice. -/
theorem ite_agrees {c : Prop} [Decidable c] {a b : State} (yes : c → SafeMatchesResponse a)
    (no : SafeMatchesResponse b) : SafeMatchesResponse (if c then a else b) := by
  split
  · rename_i hc
    exact yes hc
  · exact no

/-- The station runs, no response is in force and nothing is latched. -/
def NoResponse (s : State) : Prop := s.loader.phase = .running ∧ s.ilk.inForce = none ∧ s.ilk.latched = []

/-- SAFE knows the state of the test that it was entered from, or a state to go back to (R107, R108). -/
def KnowsWayBack (s : State) : Prop :=
  s.tsq.safeFrom.isSome = true ∨
    s.tsq.returnState ∈ [some .idle, some .done, some .unloading, some .outOfService]

/-- With no response the sequencer agrees in every state but SAFE. -/
theorem NoResponse.agrees (h : NoResponse s) (out : s.tsq.state ≠ some .safe) : SafeMatchesResponse s := by
  obtain ⟨runs, free, quiet⟩ := h
  exact ⟨by simp [out, free], by simp [quiet], fun safe => absurd safe out, fun held => absurd runs held⟩

/-- Before the release the head has no state (R90). -/
theorem SafeMatchesResponse.noState (h : SafeMatchesResponse s) (held : s.loader.phase ≠ .running) :
    s.tsq.state = none := by
  obtain ⟨-, -, -, none'⟩ := h
  exact none' held

/-- A head has a state only at a running station (R184). -/
theorem running_of_state {k : HeadState} (held : s.loader.phase ≠ .running → s.tsq.state = none)
    (at' : s.tsq.state = some k) : s.loader.phase = .running := by
  by_contra stops
  simp [held stops] at at'

/-- Outside SAFE no response is in force, so nothing is latched (R147, R151). -/
theorem SafeMatchesResponse.quiet (h : SafeMatchesResponse s) (out : s.tsq.state ≠ some .safe) :
    s.ilk.inForce = none ∧ s.ilk.latched = [] := by
  obtain ⟨agree, top, -, -⟩ := h
  have free : s.ilk.inForce = none := by simpa [out] using agree
  refine ⟨free, List.eq_nil_iff_forall_not_mem.mpr fun c latched => ?_⟩
  obtain ⟨f, taken, -⟩ := top c latched
  simp [free] at taken

/-- A head that stands outside SAFE has no response. -/
theorem SafeMatchesResponse.noResponse {k : HeadState} (h : SafeMatchesResponse s) (at' : s.tsq.state = some k)
    (out : k ≠ .safe) : NoResponse s :=
  ⟨running_of_state h.noState at', h.quiet (by simp [at', out])⟩

theorem headIs_iff (s : State) (k : HeadState) : s.headIs k = true ↔ s.tsq.state = some k := beq_iff_eq

theorem SafeMatchesResponse.noResponse_at {k : HeadState} (h : SafeMatchesResponse s) (at' : s.headIs k = true)
    (out : k ≠ .safe) : NoResponse s :=
  h.noResponse ((headIs_iff s k).mp at') out

/-! ### The states of a head -/

theorem enterPhase_agrees {k : HeadState} (h : NoResponse s) (out : k ≠ .safe) :
    SafeMatchesResponse (enterPhase k s) :=
  NoResponse.agrees (s := enterPhase k s) h fun same => out (Option.some.inj same)

theorem enterOos_agrees (c : Cause) (h : NoResponse s) : SafeMatchesResponse (enterOos c s) :=
  enterPhase_agrees (k := .outOfService) h (by decide)

theorem enterDone_agrees (h : NoResponse s) : SafeMatchesResponse (enterDone s) :=
  enterPhase_agrees (k := .done) h (by decide)

theorem enterLocked_agrees {k : HeadState} (h : NoResponse s) (out : k ≠ .safe) :
    SafeMatchesResponse (enterLocked k s) :=
  enterPhase_agrees h out

theorem enterIdle_agrees (h : NoResponse s) : SafeMatchesResponse (enterIdle s) := by
  unfold enterIdle
  split
  · exact enterOos_agrees _ h
  · split
    · exact enterOos_agrees _ h
    · exact enterPhase_agrees (k := .idle) h (by decide)

theorem enterUnloading_agrees (h : NoResponse s) : SafeMatchesResponse (enterUnloading s) :=
  NoResponse.agrees (s := enterUnloading s) h (by simp [enterUnloading])

theorem openTick_agrees (o : TickOrder) (h : SafeMatchesResponse s) : SafeMatchesResponse (openTick o s) := by
  cases o with
  | beforeSample p x => exact h
  | afterSample => exact h

/-- The input of an event is read with its tick, ahead of what the event does. -/
theorem inputRead_agrees (f : Pins → Pins) (o : TickOrder) (h : SafeMatchesResponse s) :
    SafeMatchesResponse (withInput f (openTick o s)) := openTick_agrees o h

theorem openTick_noResponse (o : TickOrder) (h : NoResponse s) : NoResponse (openTick o s) := by
  cases o with
  | beforeSample p x => exact h
  | afterSample => exact h

/-! ### SAFE is left -/

/-- Outside a test SAFE goes back to one of the four states that it is entered from there (R108). -/
theorem reenter_agrees {k : HeadState} (h : NoResponse s)
    (back : some k ∈ [some .idle, some .done, some .unloading, some HeadState.outOfService]) :
    SafeMatchesResponse (reenter k s) := by
  cases k with
  | idle => exact enterIdle_agrees h
  | done => exact enterDone_agrees h
  | unloading => exact ite_agrees (fun _ => enterUnloading_agrees h) (enterUnloading_agrees h)
  | outOfService => exact enterOos_agrees _ h
  | _ => simp at back

/-- SAFE is left with no response for a state that is not SAFE (R107, R108). -/
theorem leaveSafe_agrees (h : NoResponse s) (back : KnowsWayBack s) : SafeMatchesResponse (leaveSafe s) := by
  unfold leaveSafe
  split
  · exact ite_agrees (fun _ => enterLocked_agrees h (by decide)) (enterDone_agrees h)
  · rename_i outside
    have kept : s.tsq.returnState ∈ [some .idle, some .done, some .unloading, some .outOfService] :=
      back.resolve_left (by simp [outside])
    split
    · rename_i k returns
      exact reenter_agrees h (returns ▸ kept)
    · rename_i nowhere
      simp [nowhere] at kept

/-! ### The latch and the response -/

theorem topLatched_eq_none (s : State) : s.topLatched = none ↔ s.ilk.latched = [] := by
  simp [State.topLatched, List.find?_eq_none, List.eq_nil_iff_forall_not_mem, Cause.mem_all]

/-- In SAFE the condition of highest priority is taken, or SAFE is left (R147, R151). -/
theorem chooseNext_agrees (runs : s.loader.phase = .running) (safe : s.tsq.state = some .safe)
    (back : KnowsWayBack s) : SafeMatchesResponse (chooseNext s) := by
  have top := chooseNext_top s
  unfold chooseNext at top ⊢
  cases first : s.topLatched with
  | none => exact leaveSafe_agrees ⟨runs, rfl, (topLatched_eq_none s).mp first⟩ back
  | some c =>
    simp only [first] at top ⊢
    split
    · rename_i takes
      rw [if_pos takes] at top
      exact ⟨iff_of_true safe rfl, top, fun _ => back, fun held => absurd runs held⟩
    · exact leaveSafe_agrees ⟨runs, rfl, rfl⟩ back

/-- The agreement between the latching of causes and the response to them: what is latched may rank above the response
in force, or wait for one, but only at a head that has a state (R145, R147). -/
def AgreesButLatch (s : State) : Prop :=
  (s.tsq.state = some .safe ↔ s.ilk.inForce.isSome = true) ∧
  (s.ilk.latched ≠ [] → s.tsq.state.isSome = true) ∧
  (s.tsq.state = some .safe → KnowsWayBack s) ∧
  (s.loader.phase ≠ .running → s.tsq.state = none)

theorem SafeMatchesResponse.butLatch (h : SafeMatchesResponse s) : AgreesButLatch s := by
  obtain ⟨agree, top, back, held⟩ := h
  refine ⟨agree, fun latched => ?_, back, held⟩
  obtain ⟨c, mem⟩ := List.exists_mem_of_ne_nil _ latched
  obtain ⟨f, taken, -⟩ := top c mem
  rw [agree.mpr (by simp [taken])]
  rfl

/-- A condition latches at a head that has a state (R143). -/
theorem latches_state (c : Cause) (takes : s.latches c = true) : s.tsq.state.isSome = true := by
  cases at' : s.tsq.state with
  | some k => rfl
  | none => simp [State.latches, State.condActive, at'] at takes

theorem latchOne_butLatch (c : Cause) (h : AgreesButLatch s) : AgreesButLatch (latchOne c s) := by
  cases takes : s.latches c with
  | false => rwa [latchOne_not c s takes]
  | true =>
    obtain ⟨agree, -, back, held⟩ := h
    have stands := latches_state c takes
    rw [latchOne_taken c s takes]
    exact ⟨agree, fun _ => stands, back, held⟩

theorem latchAll_butLatch (cs : List Cause) (h : AgreesButLatch s) : AgreesButLatch (latchAll cs s) := by
  induction cs generalizing s with
  | nil => exact h
  | cons c cs ih => exact ih (latchOne_butLatch c h)

/-- A test is under way in every state but SAFE and the four that SAFE goes back to (R106, R108). -/
theorem HeadState.outsideTest {k : HeadState} (idle : k.inTest = false) (out : k ≠ .safe) :
    some k ∈ [some .idle, some .done, some .unloading, some HeadState.outOfService] := by
  cases k <;> simp_all [HeadState.inTest, HeadState.code]

/-- SAFE is entered with the way back known: the state of the test, or one of the four others (R106, R108). -/
theorem enterSafe_enters {k : HeadState} (at' : s.tsq.state = some k) (out : k ≠ .safe) :
    (enterSafe s).tsq.state = some .safe ∧ KnowsWayBack (enterSafe s) := by
  cases test : k.inTest with
  | true =>
    obtain ⟨safe, -, -, origin, -⟩ := enterSafe_test k s at' test
    exact ⟨safe, .inl (by simp [origin])⟩
  | false =>
    rw [enterSafe_outside k s at' out test]
    exact ⟨rfl, .inr (HeadState.outsideTest test out)⟩

/-- The response to what has latched restores the agreement (R147, R150). -/
theorem respond_agrees (h : AgreesButLatch s) : SafeMatchesResponse (respond s) := by
  obtain ⟨agree, stands, back, held⟩ := h
  have stays (same : respond s = s) : SafeMatchesResponse (respond s) := by
    have top := respond_top s
    rw [same] at top ⊢
    exact ⟨agree, top, back, held⟩
  cases first : s.topLatched with
  | none => exact stays (by simp [respond, first])
  | some c =>
    have latched : s.ilk.latched ≠ [] := fun none' => by simp [(topLatched_eq_none s).mpr none'] at first
    obtain ⟨k, at'⟩ := Option.isSome_iff_exists.mp (stands latched)
    cases taken : s.ilk.inForce with
    | none =>
      have out : k ≠ .safe := by
        rintro rfl
        simp [taken] at agree
        exact agree at'
      obtain ⟨safe, way⟩ := enterSafe_enters at' out
      have phase : (enterSafe s).loader.phase = s.loader.phase :=
        (congrArg (fun u => u.loader.phase) (enterSafe_outsideHead s) :)
      have enters : respond s = chooseNext (enterSafe s) := by simp [respond, first, taken]
      rw [enters]
      exact chooseNext_agrees (phase.trans (running_of_state held at')) safe way
    | some f =>
      have safe : s.tsq.state = some .safe := agree.mpr (by simp [taken])
      by_cases above : c.code < f.code
      · have preempts : respond s = chooseNext s := by simp [respond, first, taken, above]
        rw [preempts]
        exact chooseNext_agrees (running_of_state held safe) safe (back safe)
      · exact stays (by simp [respond, first, taken, above])

theorem raise_agrees (cs : List Cause) (h : SafeMatchesResponse s) : SafeMatchesResponse (raise cs s) :=
  respond_agrees (latchAll_butLatch cs h.butLatch)

/-- A response in force completes in SAFE (R151). -/
theorem completeResponse_agrees (h : SafeMatchesResponse s) : SafeMatchesResponse (completeResponse s) := by
  unfold completeResponse
  split
  · exact h
  · rename_i c taken
    obtain ⟨agree, -, back, held⟩ := h
    have safe : s.tsq.state = some .safe := agree.mpr (by simp [taken])
    exact chooseNext_agrees (running_of_state held safe) safe (back safe)

/-! ### The events of a head -/

theorem pswEdge_agrees (o : TickOrder) (h : SafeMatchesResponse s) : SafeMatchesResponse (pswEdge o s) :=
  ite_agrees (fun _ => respond_agrees (latchOne_butLatch _ (inputRead_agrees _ o h).butLatch)) h

theorem abortEdge_agrees (o : TickOrder) (h : SafeMatchesResponse s) : SafeMatchesResponse (abortEdge o s) :=
  ite_agrees (fun _ => respond_agrees (latchOne_butLatch _ (inputRead_agrees _ o h).butLatch)) h

theorem seatRead_agrees (o : TickOrder) (h : SafeMatchesResponse s) : SafeMatchesResponse (seatRead o s) :=
  ite_agrees
    (fun loading => enterPhase_agrees (openTick_noResponse o (h.noResponse_at loading (by decide))) (by decide))
    (ite_agrees (fun idle => enterOos_agrees _ (openTick_noResponse o (h.noResponse_at idle (by decide))))
      (inputRead_agrees (fun p => { p with seat := true }) o h))

theorem lidClosedRead_agrees (o : TickOrder) (h : SafeMatchesResponse s) : SafeMatchesResponse (lidClosedRead o s) := by
  have read := inputRead_agrees (fun p => { p with lidClosed := true }) o h
  exact ite_agrees (fun _ => read) read

theorem fillRead_agrees (o : TickOrder) (h : SafeMatchesResponse s) : SafeMatchesResponse (fillRead o s) :=
  ite_agrees
    (fun filling => enterLocked_agrees (openTick_noResponse o (h.noResponse_at filling (by decide))) (by decide))
    (inputRead_agrees (fun p => { p with jacketFull := true, bleedWet := true }) o h)

theorem loadExpiry_agrees (o : TickOrder) (h : SafeMatchesResponse s) : SafeMatchesResponse (loadExpiry o s) :=
  ite_agrees (fun due => enterDone_agrees
    (openTick_noResponse o (h.noResponse_at (Bool.and_eq_true_iff.mp due).1 (by decide)))) h

theorem drainExpiry_agrees (o : TickOrder) (h : SafeMatchesResponse s) : SafeMatchesResponse (drainExpiry o s) :=
  ite_agrees (fun due => enterDone_agrees
    (openTick_noResponse o (h.noResponse_at (Bool.and_eq_true_iff.mp due).1 (by decide)))) h

theorem expiryCause_agrees (o : TickOrder) (c : Cause) (h : SafeMatchesResponse s) :
    SafeMatchesResponse (expiryCause o c s) := by
  cases o with
  | beforeSample p x => exact raise_agrees _ h
  | afterSample => exact raise_agrees _ h

theorem unloadRead_agrees (o : TickOrder) (h : SafeMatchesResponse s) : SafeMatchesResponse (unloadRead o s) :=
  ite_agrees (fun complete => enterIdle_agrees
      (openTick_noResponse o (h.noResponse_at (Bool.and_eq_true_iff.mp complete).1 (by decide))))
    (inputRead_agrees (fun p => { p with seat := false, unloadClear := true }) o h)

theorem unloadExpiry_agrees (o : TickOrder) (h : SafeMatchesResponse s) : SafeMatchesResponse (unloadExpiry o s) :=
  ite_agrees (fun due => by
    obtain ⟨gated, -⟩ := Bool.and_eq_true_iff.mp due
    obtain ⟨unloading, -⟩ := Bool.and_eq_true_iff.mp gated
    exact enterOos_agrees _ (openTick_noResponse o (h.noResponse_at unloading (by decide)))) h

theorem clearTaken_agrees (o : TickOrder) (h : SafeMatchesResponse s) : SafeMatchesResponse (clearTaken o s) := by
  have read := inputRead_agrees (fun p => { p with clear := true }) o h
  refine ite_agrees (fun _ => ite_agrees (fun out => ?_) read) h
  have free := openTick_noResponse o (h.noResponse_at out (by decide))
  exact ite_agrees (fun _ => ite_agrees (fun _ => enterDone_agrees free) (enterIdle_agrees free)) read

/-! ### The sample tick -/

theorem tickRead_agrees (p : Pins) (x : Sample) (h : SafeMatchesResponse s) : SafeMatchesResponse (tickRead p x s) :=
  ite_agrees (a := (senseInputs p s).withTsq _ |>.withIlk _) (fun _ => h) h

theorem enterReading_agrees {k : HeadState} (h : NoResponse s) (out : k ≠ .safe) :
    SafeMatchesResponse (enterReading k s) := enterLocked_agrees h out

theorem raisePeak_agrees (q : Nat) (h : SafeMatchesResponse s) : SafeMatchesResponse (raisePeak q s) := h

theorem enterHolding_agrees (q : Nat) (h : NoResponse s) : SafeMatchesResponse (enterHolding q s) :=
  enterReading_agrees (k := .holding) h (by decide)

/-- A pressure ends the ramp or the vent (R135, R137). -/
theorem usePressure_agrees (owed : Bool) (h : SafeMatchesResponse s) : SafeMatchesResponse (usePressure owed s) := by
  unfold usePressure
  dsimp only
  split
  · rename_i ramping
    exact ite_agrees (fun _ => enterHolding_agrees _ (h.noResponse ramping (by decide))) (raisePeak_agrees _ h)
  · exact raisePeak_agrees _ h
  · rename_i venting
    exact ite_agrees (fun _ => enterReading_agrees (h.noResponse venting (by decide)) (by decide)) h
  · exact ite_agrees (fun _ => raisePeak_agrees _ h) h
  · exact h

/-- A reading ends its phase (R95, R98, R100). -/
theorem takeReading_agrees (k : HeadState) (sum t : Nat) (h : SafeMatchesResponse s) (free : NoResponse s) :
    SafeMatchesResponse (takeReading k sum t s) := by
  cases k with
  | zeroing => exact enterLocked_agrees (k := .waitRamp) free (by decide)
  | holding => exact enterLocked_agrees (k := .venting) free (by decide)
  | settling => exact enterLocked_agrees (k := .draining) free (by decide)
  | _ => exact h

theorem judgeWindow_agrees (k : HeadState) (w : Window) (h : SafeMatchesResponse s) (free : NoResponse s) :
    SafeMatchesResponse (judgeWindow k w s) := by
  have reported (c : Cause) (v : Window) : SafeMatchesResponse (raise [c] (withWindow v s)) := raise_agrees _ h
  exact ite_agrees (fun _ => ite_agrees (fun _ => takeReading_agrees _ _ _ h free) (reported _ _))
    (ite_agrees (fun _ => reported _ _) h)

theorem useWindow_agrees (k : HeadState) (x : Sample) (h : SafeMatchesResponse s) (free : NoResponse s) :
    SafeMatchesResponse (useWindow k x s) :=
  ite_agrees (fun _ => h) (ite_agrees (fun _ => h) (ite_agrees (fun _ => h)
    (ite_agrees (fun _ => judgeWindow_agrees _ _ h free) h)))

theorem windowStage_agrees (phase : Option HeadState) (x : Sample) (reads : phase ≠ some .safe)
    (h : SafeMatchesResponse s) : SafeMatchesResponse (windowStage phase x s) := by
  cases phase with
  | none => exact h
  | some k =>
    exact ite_agrees (fun at' => useWindow_agrees k x h (h.noResponse_at at' fun safe => reads (safe ▸ rfl))) h

theorem headSample_agrees (p : Pins) (x : Sample) (h : SafeMatchesResponse s) :
    SafeMatchesResponse (headSample p x s) :=
  windowStage_agrees _ x (numberedPhase_ne_safe s) (raise_agrees _ (usePressure_agrees _ (tickRead_agrees p x h)))

theorem execSampleTick_agrees (p : Pins) (x : Sample) (h : SafeMatchesResponse s) :
    OutMeets SafeMatchesResponse (execSampleTick p x s) := by
  unfold execSampleTick
  split
  · exact outMeets_next (headSample_agrees p x h)
  · exact outMeets_next h
  · exact outMeets_next h
  · exact outMeets_next h

/-! ### Messages -/

theorem contend_agrees (k : Key) (h : SafeMatchesResponse s) : SafeMatchesResponse (contend k s) :=
  ite_agrees (fun _ => h) h

theorem unaccepted_agrees (m : TxMsg) (h : SafeMatchesResponse s) : SafeMatchesResponse (unaccepted m s) := by
  unfold unaccepted unacceptedEffect
  split <;> exact h

theorem execMessageSend_agrees (read : List Byte) (h : SafeMatchesResponse s) :
    OutMeets SafeMatchesResponse (execMessageSend read s) := by
  unfold execMessageSend
  split
  · exact outMeets_ite (fun _ => ite_agrees (fun _ => h) (ite_agrees (fun _ => unaccepted_agrees _ h) h)) h
  · exact outMeets_next h

/-- The return accepted moves a head in UNLOADING; in SAFE it may set the state to go back to (R103, R105, R108). -/
theorem returnTaken_agrees (h : SafeMatchesResponse s) : SafeMatchesResponse (returnTaken s) := by
  refine ite_agrees (fun unloading => ?_) (ite_agrees (fun _ => ?_) h)
  · exact ite_agrees (fun _ => enterIdle_agrees (h.noResponse_at unloading (by decide))) h
  · obtain ⟨agree, top, -, held⟩ := h
    exact ⟨agree, top, fun _ => .inr (by simp), held⟩

/-- The return dropped takes a head in UNLOADING out of service, at once or at the exit of SAFE (R49, R108, R109). -/
theorem returnDropped_agrees (h : SafeMatchesResponse s) : SafeMatchesResponse (returnDropped s) := by
  refine ite_agrees (fun unloading => ?_) (ite_agrees (fun _ => ?_) h)
  · exact enterOos_agrees _ (h.noResponse_at unloading (by decide))
  · obtain ⟨agree, top, -, held⟩ := h
    exact ⟨agree, top, fun _ => .inr (by simp), held⟩

theorem readAccept_agrees (read : Byte) (m : TxMsg) (h : SafeMatchesResponse s) :
    SafeMatchesResponse (readAccept read m s) := by
  unfold readAccept
  split
  · cases m.kind with
    | docketReturn => exact returnTaken_agrees (s := removeContender s) h
    | _ => exact h
  · exact unaccepted_agrees m h

theorem execAcceptFieldRead_agrees (read : Byte) (h : SafeMatchesResponse s) :
    OutMeets SafeMatchesResponse (execAcceptFieldRead read s) := by
  unfold execAcceptFieldRead
  split
  · exact outMeets_ite (fun _ => readAccept_agrees read _ h) h
  · exact outMeets_next h

theorem dropMessage_agrees (h : SafeMatchesResponse s) : SafeMatchesResponse (dropMessage s) := by
  unfold dropMessage
  split
  · rename_i m _
    cases m.kind with
    | docketReturn => exact returnDropped_agrees (s := s.withTxq _) h
    | _ => exact h
  · exact h

/-- A received frame keeps the agreement when what takes it does. -/
theorem receive_agrees (k : MsgKind) (f : Frame) {take : State → State}
    (keeps : ∀ u, SafeMatchesResponse u → SafeMatchesResponse (take u)) (h : SafeMatchesResponse s) :
    SafeMatchesResponse (receive k f take s) :=
  ite_agrees (fun _ => ite_agrees (fun _ => h) (ite_agrees (fun _ => keeps _ h) h)) h

/-- A head takes an offer in IDLE (R50, R92). -/
theorem offerFor_agrees (f : Frame) (read : Byte) (h : SafeMatchesResponse s) :
    SafeMatchesResponse (offerFor f read s) := by
  refine ite_agrees (fun idle => ?_) h
  have free := h.noResponse_at (Bool.and_eq_true_iff.mp idle).2 (by decide)
  split
  · exact ite_agrees (fun _ => ite_agrees (fun _ => enterPhase_agrees free (by decide)) h) h
  · exact h

/-- A head takes a call in DONE (R52, R103). -/
theorem callFor_agrees (f : Frame) (read : Byte) (h : SafeMatchesResponse s) :
    SafeMatchesResponse (callFor f read s) := by
  refine ite_agrees (fun done => ite_agrees (fun _ => ?_) h) h
  have free := h.noResponse_at (Bool.and_eq_true_iff.mp done).2 (by decide)
  refine enterUnloading_agrees ?_
  unfold queueMsg
  split <;> exact free

theorem directFor_agrees (f : Frame) (read : Byte) (h : SafeMatchesResponse s) :
    SafeMatchesResponse (directFor f read s) := by
  refine ite_agrees (fun _ => ?_) h
  split
  · exact ite_agrees (fun _ => ite_agrees (fun _ => h) h) h
  · exact h

theorem returnFor_agrees (f : Frame) (read : Byte) (h : SafeMatchesResponse s) :
    SafeMatchesResponse (returnFor f read s) := by
  refine ite_agrees (fun _ => ?_) h
  split
  · rename_i d _
    have taken (x : Round) : SafeMatchesResponse (returnAccepted d (withRound x s)) :=
      SafeMatchesResponse.of_outsideDsu (s := withRound x s) h (returnAccepted_outsideDsu d _)
    exact ite_agrees (fun _ => ite_agrees (fun _ => taken _) h) h
  · exact h

theorem refreshShare_agrees (h : SafeMatchesResponse s) : SafeMatchesResponse (refreshShare s) :=
  ite_agrees (fun _ => h) h

theorem cardFor_agrees (f : Frame) (h : SafeMatchesResponse s) : SafeMatchesResponse (cardFor f s) := by
  refine ite_agrees (fun _ => ?_) h
  split
  · exact refreshShare_agrees h
  · exact h

theorem noteFor_agrees (f : Frame) (h : SafeMatchesResponse s) : SafeMatchesResponse (noteFor f s) := by
  refine ite_agrees (fun _ => ?_) h
  split
  · exact h.of_outsideIntake (takeNote_outsideIntake _ s)
  · exact h

/-! ### The line and the end of a complete round -/

theorem execPost_agrees (read : PostWord) (h : SafeMatchesResponse s) :
    OutMeets SafeMatchesResponse (execPost read s) := by
  unfold execPost
  split
  · exact outMeets_ite (fun _ => ite_agrees (fun _ => h) h) h
  · exact outMeets_next h

theorem silenceExpiry_agrees (o : TickOrder) (h : SafeMatchesResponse s) : SafeMatchesResponse (silenceExpiry o s) :=
  ite_agrees (fun _ => raise_agrees _ (openTick_agrees o (s := s.withLif _) h)) h

theorem cardStep_agrees (r : Role) (old : List PvtEntry) (h : SafeMatchesResponse s) :
    SafeMatchesResponse (cardStep r old s) := by
  obtain ⟨q, v, carded⟩ := cardStep_frame r old s
  rw [carded]
  exact h

theorem conflictStep_agrees (r : Role) (h : SafeMatchesResponse s) : SafeMatchesResponse (conflictStep r s) := by
  obtain ⟨l, q, u, d, stepped⟩ := conflictStep_frame s r
  rw [stepped]
  exact h

theorem ageStep_agrees (h : SafeMatchesResponse s) : SafeMatchesResponse (ageStep s) := by
  unfold ageStep
  split <;> exact h

/-- A head admitted leaves WAIT_RAMP (R119, R120). -/
theorem admission_agrees (h : SafeMatchesResponse s) : SafeMatchesResponse (admission s) := by
  refine ite_agrees (fun admitted => ?_) h
  obtain ⟨claims, -⟩ := Bool.and_eq_true_iff.mp admitted
  obtain ⟨waits, -⟩ := Bool.and_eq_true_iff.mp claims
  exact enterLocked_agrees (k := .ramping) (h.noResponse_at waits (by decide)) (by decide)

theorem roleStep_agrees (r : Role) (h : SafeMatchesResponse s) : SafeMatchesResponse (roleStep r s) := by
  refine ite_agrees (fun _ => h) ?_
  cases r with
  | inspect =>
    exact (h.of_outsideIntake (offerDecision_outsideIntake s)).of_outsideIntake (directDecision_outsideIntake _)
  | test => exact admission_agrees h
  | dispose =>
    obtain ⟨q, u, recorded⟩ := cardRecord_frame s
    refine SafeMatchesResponse.of_outsideDsu ?_ (callDecision_outsideDsu _)
    rw [recorded]
    exact h

theorem completeRound_agrees (r : Role) (w : PostWord) (posts : List PostWord) (cell263 : Bool)
    (h : SafeMatchesResponse s) : SafeMatchesResponse (completeRound r w posts cell263 s) := by
  have carded : SafeMatchesResponse (roundCarded r w posts cell263 s) :=
    cardStep_agrees r s.pvt (s := roundTabled w posts cell263 s) (dropMessage_agrees h)
  have counted : SafeMatchesResponse (roundCounted r w posts cell263 s) :=
    refreshShare_agrees (ageStep_agrees (s := waitStep _) (conflictStep_agrees r carded))
  rw [completeRound_eq]
  exact ite_agrees (fun _ => roleStep_agrees r counted) (roleStep_agrees r counted)

theorem execRoundEnd_agrees (posts : List PostWord) (cell263 : Bool) (h : SafeMatchesResponse s) :
    OutMeets SafeMatchesResponse (execRoundEnd posts cell263 s) := by
  unfold execRoundEnd
  split
  · exact outMeets_ite (fun _ => completeRound_agrees _ _ _ _ h) h
  · exact outMeets_next h

/-! ### Stops, resets and the release -/

theorem execStopReported_agrees (h : SafeMatchesResponse s) :
    OutMeets SafeMatchesResponse (execStopReported s) := by
  have flagged : SafeMatchesResponse ((s.withInputs { s.inputs with estop := true }).withIlk
      { s.ilk with stopFlag := true }) := h
  have acted (r : Role) : SafeMatchesResponse (stopReported r s) := by
    refine ite_agrees (fun _ => flagged) ?_
    cases r with
    | inspect => exact flagged.of_outsideIntake (intakeStop_outsideIntake _)
    | test => exact flagged
    | dispose => exact flagged.of_outsideDsu (disposeStop_outsideDsu _)
  unfold execStopReported
  split
  · exact outMeets_next h
  · exact outMeets_ite (fun _ => h) (acted _)
  · exact outMeets_next h

theorem execStopEnded_agrees (h : SafeMatchesResponse s) : OutMeets SafeMatchesResponse (execStopEnded s) := by
  have cleared : SafeMatchesResponse ((s.withInputs { s.inputs with estop := false }).withIlk
      { s.ilk with stopFlag := false }) := h
  have acted (r : Role) : SafeMatchesResponse (stopEnded r s) := by
    refine ite_agrees (fun _ => cleared) ?_
    cases r with
    | inspect => exact ite_agrees (fun _ => cleared.of_outsideIntake (intakeResume_outsideIntake _)) cleared
    | test => exact cleared
    | dispose => exact cleared.of_outsideDsu (disposeResume_outsideDsu _)
  unfold execStopEnded
  split
  · exact outMeets_next h
  · exact outMeets_ite (fun _ => acted _) h
  · exact outMeets_next h

/-- A reset leaves a head without a state, a response or a latched condition (R90, R144, R180). -/
theorem resetState_agrees (c : ResetCause) (s : State) : SafeMatchesResponse (resetState c s) :=
  ⟨iff_of_false nofun Bool.false_ne_true, fun _ latched => absurd latched List.not_mem_nil, nofun, fun _ => rfl⟩

/-- Before the release a head has no state, whatever becomes of the loader (R90). -/
theorem withLoader_agrees (x : Loader) (held : s.loader.phase ≠ .running) (h : SafeMatchesResponse s) :
    SafeMatchesResponse (s.withLoader x) := by
  have none' := h.noState held
  obtain ⟨agree, top, back, -⟩ := h
  exact ⟨agree, top, back, fun _ => none'⟩

/-- At the release of the line a head enters IDLE or OUT_OF_SERVICE with no response (R184). -/
theorem takeProfile_agrees (r : Role) (items : List (Nat × List Byte)) (seat infeedClear : Bool)
    (held : s.loader.phase ≠ .running) (h : SafeMatchesResponse s) :
    SafeMatchesResponse (takeProfile r items seat infeedClear s) := by
  have loaded := withLoader_agrees { s.loader with phase := .running, clamped := (takeItems r items).clamped } held h
  cases r with
  | inspect => exact ite_agrees (fun _ => loaded) loaded
  | test =>
    exact enterIdle_agrees ⟨rfl, h.quiet (by simp [h.noState held])⟩
  | dispose => exact loaded

theorem readImage_agrees (r : Role) (im : List Byte) (seat infeedClear : Bool) (held : s.loader.phase ≠ .running)
    (h : SafeMatchesResponse s) : SafeMatchesResponse (readImage r im seat infeedClear s) := by
  have loaded (x : Loader) := withLoader_agrees x held h
  have checked (x : Loader) (still : x.phase ≠ .running) :
      SafeMatchesResponse (checkImage r im seat infeedClear (s.withLoader x)) := by
    refine ite_agrees (fun _ => loaded _) ?_
    split
    · exact loaded _
    · exact takeProfile_agrees r _ seat infeedClear still (loaded x)
  exact ite_agrees (fun _ => loaded _) (ite_agrees (fun _ => loaded _) (ite_agrees (fun _ => loaded _)
    (ite_agrees (fun _ => checked _ held) (ite_agrees (fun _ => loaded _) (loaded _)))))

theorem execProfileReadComplete_agrees (im : List Byte) (seat infeedClear : Bool) (h : SafeMatchesResponse s) :
    OutMeets SafeMatchesResponse (execProfileReadComplete im seat infeedClear s) := by
  unfold execProfileReadComplete
  split
  · rename_i reading _
    exact outMeets_next (readImage_agrees _ _ _ _ (by simp [reading]) h)
  · exact outMeets_next h

theorem execResetRelease_agrees (a : Addr) (r : BitVec 2) (high : Bool) (h : SafeMatchesResponse s) :
    OutMeets SafeMatchesResponse (execResetRelease a r high s) := by
  refine outMeets_ite (fun reset => ?_) h
  have loaded (x : Loader) := withLoader_agrees x (s := s) (by simp [beq_iff_eq.mp reset]) h
  exact ite_agrees (fun _ => loaded _) (loaded _)

/-! ### The commands -/

/-- A head's event, done at a head alone, keeps the agreement when it does. -/
theorem atHead_agrees {f : State → State} (done : SafeMatchesResponse (f s)) (h : SafeMatchesResponse s) :
    OutMeets SafeMatchesResponse (.next (atHead f s)) :=
  outMeets_next (ite_agrees (fun _ => done) h)

theorem headEvent_agrees (h : SafeMatchesResponse s) (i : Instr) (own : headEvent i = true) :
    OutMeets SafeMatchesResponse (exec i s) := by
  cases i with
  | responseComplete => exact atHead_agrees (ite_agrees (fun _ => completeResponse_agrees h) h) h
  | estop o => exact atHead_agrees (raise_agrees _ (inputRead_agrees _ o h)) h
  | psw o => exact atHead_agrees (pswEdge_agrees o h) h
  | abort o => exact atHead_agrees (abortEdge_agrees o h) h
  | lidOpen o => exact atHead_agrees (raise_agrees _ (inputRead_agrees _ o h)) h
  | seatActive o => exact atHead_agrees (seatRead_agrees o h) h
  | lidClosed o => exact atHead_agrees (lidClosedRead_agrees o h) h
  | fillComplete o => exact atHead_agrees (fillRead_agrees o h) h
  | loadTimeout o => exact atHead_agrees (loadExpiry_agrees o h) h
  | fillTimeout o => exact atHead_agrees (ite_agrees (fun _ => expiryCause_agrees o _ h) h) h
  | rampTimeout o => exact atHead_agrees (ite_agrees (fun _ => expiryCause_agrees o _ h) h) h
  | holdTimerExpiry o => exact atHead_agrees (ite_agrees (fun _ => openTick_agrees o h) h) h
  | drainTimerExpiry o => exact atHead_agrees (drainExpiry_agrees o h) h
  | urgentFlagSet o => exact atHead_agrees (ite_agrees (fun _ => openTick_agrees o h) h) h
  | unloadComplete o => exact atHead_agrees (unloadRead_agrees o h) h
  | unloadTimeout o => exact atHead_agrees (unloadExpiry_agrees o h) h
  | clearEdge o => exact atHead_agrees (clearTaken_agrees o h) h
  | _ => exact absurd own Bool.false_ne_true

/-- Every command keeps the response in force and SAFE in agreement. -/
theorem exec_agrees (i : Instr) (h : SafeMatchesResponse s) : OutMeets SafeMatchesResponse (exec i s) := by
  cases i with
  | powerOnReset => exact outMeets_next (resetState_agrees _ s)
  | pinReset => exact outMeets_ite (fun _ => h) (resetState_agrees .pin s)
  | resetRelease a r high => exact execResetRelease_agrees a r high h
  | profileReadComplete im seat infeedClear => exact execProfileReadComplete_agrees im seat infeedClear h
  | idleSpan cells => exact outMeets_ite (fun _ => h) h
  | callMade read => exact outMeets_ite (fun _ => ite_agrees (fun _ => h) h) h
  | callJoined read => exact outMeets_ite (fun _ => ite_agrees (fun _ => h) h) h
  | post read => exact execPost_agrees read h
  | incompleteRoundEnd => exact outMeets_ite (fun _ => h) h
  | contention read => exact outMeets_ite (fun _ => contend_agrees read h) h
  | messageSend read => exact execMessageSend_agrees read h
  | acceptFieldRead read => exact execAcceptFieldRead_agrees read h
  | messageDropped => exact outMeets_next (dropMessage_agrees h)
  | docketOffer f read => exact outMeets_next (receive_agrees _ f (fun _ hu => offerFor_agrees f read hu) h)
  | releaseCall f read => exact outMeets_next (receive_agrees _ f (fun _ hu => callFor_agrees f read hu) h)
  | docketDirect f read => exact outMeets_next (receive_agrees _ f (fun _ hu => directFor_agrees f read hu) h)
  | docketReturn f read => exact outMeets_next (receive_agrees _ f (fun _ hu => returnFor_agrees f read hu) h)
  | stationCard f => exact outMeets_next (receive_agrees _ f (fun _ hu => cardFor_agrees f hu) h)
  | verdictNote f => exact outMeets_next (receive_agrees _ f (fun _ hu => noteFor_agrees f hu) h)
  | roundEnd posts cell263 => exact execRoundEnd_agrees posts cell263 h
  | pacingExpiry => exact outMeets_next h
  | keepAliveExpiry => exact outMeets_next h
  | silenceExpiry o => exact outMeets_ite (fun _ => silenceExpiry_agrees o h) h
  | sampleTick pins x => exact execSampleTick_agrees pins x h
  | stopReported => exact execStopReported_agrees h
  | stopEnded => exact execStopEnded_agrees h
  | lampRepeat => exact outMeets_ite (fun _ => h) h
  | responseComplete | estop | psw | abort | lidOpen | seatActive | lidClosed | fillComplete | loadTimeout | fillTimeout
  | rampTimeout | holdTimerExpiry | drainTimerExpiry | urgentFlagSet | unloadComplete | unloadTimeout | clearEdge =>
    exact headEvent_agrees h _ rfl
  | infeedClear | readerLine | period | mass | find | close | cancel | clearEntry | unknownKeyword | docketJoin
  | pulseEnd | terminalReplySent => exact (intakeCommand_frame s _ rfl).mono fun _ => h.of_outsideIntake
  | markReaderLine | linkClear | linkLoad | linkQuery | linkStrike | strikeTimeout | punchDone | punchTimeout
  | punchPulseEnd | laneReleaseEnd | disposeClear | arrivalTimeout | callTimeout | recordLineSent =>
    exact (disposalCommand_frame s _ rfl).mono fun _ => h.of_outsideDsu

end

/-- Settles O10: a head moves between states with no response in force; a response is taken with the entry of SAFE and
SAFE is left with the last one, so every command, and with it the step, keeps the agreement. -/
theorem safeAndResponseAgree : Obligations.SafeAndResponseAgree :=
  fun _ _ h ran => step_meets (fun _ _ hu => hu) (fun i _ hu => exec_agrees i hu) h ran

end Sys2Proof.Machine
end

section
/-! The head moves on (R91 to R94, R101, R102, R117, R163): what the reading of a tick keeps, the timers of the phases, and
what an input or a timer does in the state it belongs to. -/

namespace Sys2Proof.Machine

/-- An event that is done at a head alone, at a running head. -/
theorem next_atHead {f : State → State} {s t : State} (head : s.role = some .test) (does : f s = t) :
    (Host.Outcome.next (atHead f s) : Out) = .next t :=
  congrArg _ ((if_pos ((isHead_iff s).mpr head)).trans does)

section
variable (o : TickOrder) (s : State)

/-! ### The reading of a tick keeps the figures of the head -/

@[simp] theorem openTick_params : (openTick o s).params = s.params := by cases o <;> rfl
@[simp] theorem openTick_docket : (openTick o s).tsq.docket = s.tsq.docket := by cases o <;> rfl
@[simp] theorem openTick_lidLock : (openTick o s).tsq.lidLock = s.tsq.lidLock := by cases o <;> rfl
@[simp] theorem openTick_caller : (openTick o s).tsq.caller = s.tsq.caller := by cases o <;> rfl
@[simp] theorem openTick_oosCause : (openTick o s).tsq.oosCause = s.tsq.oosCause := by cases o <;> rfl
@[simp] theorem openTick_marks : (openTick o s).ilk.marks = s.ilk.marks := by cases o <;> rfl

/-! ### The phase timer (R91) -/

/-- A timed length expires at the tick at which the count equals it. -/
theorem phaseExpires_iff {p : TickCounter} (len : Nat) (runs : s.tsq.phase = some p) :
    s.phaseExpires o len = true ↔ p.at o = len := by
  unfold State.phaseExpires
  rw [runs]
  exact beq_iff_eq

/-- What a timer does that runs in state `k`: it acts at the tick of its expiry, and an expiry at any other tick changes
nothing (R91; log 3). -/
theorem expiry_taken {p : TickCounter} {k : HeadState} {len : Nat} {a : State} (at' : s.tsq.state = some k)
    (runs : s.tsq.phase = some p) :
    (p.at o = len → (if s.headIs k && s.phaseExpires o len then a else s) = a) ∧
    (p.at o ≠ len → (if s.headIs k && s.phaseExpires o len then a else s) = s) := by
  rw [(headIs_iff s k).mpr at', Bool.true_and]
  exact ⟨fun due => if_pos ((phaseExpires_iff o s len runs).mpr due),
    fun early => if_neg fun due => early ((phaseExpires_iff o s len runs).mp due)⟩

/-! ### DONE (R102, R163) -/

/-- DONE is urgent after a verdict that is not PASS, and while a mark stands (R163). -/
theorem doneIsUrgent_slot {d : Docket} {x : TestPart} (slot : s.tsq.docket = some d) (test : d.test = some x) :
    s.doneIsUrgent = (x.verdict != .pass || !s.ilk.marks.isEmpty) := by
  obtain ⟨⟩ := d
  subst test
  simp only [State.doneIsUrgent, slot]

theorem doneIsUrgent_iff : s.doneIsUrgent = true ↔ s.ilk.marks ≠ [] ∨
    ∃ d x, s.tsq.docket = some d ∧ d.test = some x ∧ x.verdict ≠ .pass := by
  cases slot : s.tsq.docket with
  | none => simp [State.doneIsUrgent, slot]
  | some d =>
    cases test : d.test with
    | none =>
      obtain ⟨⟩ := d
      subst test
      simp [State.doneIsUrgent, slot]
    | some x => simp [doneIsUrgent_slot s slot test, test, or_comm]

/-- The entry of DONE, with what it makes of the sequencer (R102, R163). -/
theorem enterDone_eq : enterDone s = { s with tsq := { s.tsq with
    state := some .done, phase := some s.newCounter, doneAge := 0, doneUrgent := s.doneIsUrgent, oosCause := none
    gateOpen := false, lidLock := false } } := rfl

/-! ### SEAT and the lid (R92 to R94) -/

/-- SEAT takes LOADING to FILLING (R93). -/
theorem seatRead_loading (at' : s.tsq.state = some .loading) :
    seatRead o s = enterPhase .filling (withInput (fun p => { p with seat := true }) (openTick o s)) :=
  if_pos ((headIs_iff s _).mpr at')

/-- SEAT takes IDLE to OUT_OF_SERVICE (R92). -/
theorem seatRead_idle (at' : s.tsq.state = some .idle) :
    seatRead o s = enterOos .orphan (withInput (fun p => { p with seat := true }) (openTick o s)) :=
  (if_neg (by simp [State.headIs, at'])).trans (if_pos ((headIs_iff s _).mpr at'))

theorem seatRead_other (loading : s.tsq.state ≠ some .loading) (idle : s.tsq.state ≠ some .idle) :
    seatRead o s = withInput (fun p => { p with seat := true }) (openTick o s) :=
  (if_neg (mt (headIs_iff s _).mp loading)).trans (if_neg (mt (headIs_iff s _).mp idle))

/-- The lid is locked by its closing in FILLING, and stays as it is elsewhere (R94). -/
theorem lidClosedRead_eq : lidClosedRead o s =
    { openTick o s with
      inputs := { (openTick o s).inputs with lidClosed := true }
      tsq := { (openTick o s).tsq with lidLock := s.tsq.lidLock || s.tsq.state == some .filling } } := by
  by_cases filling : s.tsq.state = some .filling
  · refine (if_pos ((headIs_iff s _).mpr filling)).trans ?_
    simp only [filling, beq_self_eq_true, Bool.or_true]
    rfl
  · refine (if_neg (mt (headIs_iff s _).mp filling)).trans ?_
    simp only [beq_eq_false_iff_ne.mpr filling, Bool.or_false, ← openTick_lidLock o s]
    rfl

/-! ### The fill (R94, R129) -/

/-- A complete fill takes FILLING to ZEROING, the lid locked, with a fresh window. -/
theorem fillRead_filling (at' : s.tsq.state = some .filling) : fillRead o s =
    enterReading .zeroing (withInput (fun p => { p with jacketFull := true, bleedWet := true }) (openTick o s)) :=
  if_pos ((headIs_iff s _).mpr at')

theorem fillRead_other (other : s.tsq.state ≠ some .filling) : fillRead o s =
    withInput (fun p => { p with jacketFull := true, bleedWet := true }) (openTick o s) :=
  if_neg (mt (headIs_iff s _).mp other)

/-! ### What the timers take the head to (R93, R101) -/

/-- A load timeout ends in DONE, urgent, with a test that was not made (R8, R93). -/
theorem loadTimeout_done {d : Docket} {x : TestPart} (slot : s.tsq.docket = some d) (test : d.test = some x) :
    enterDone (onTest TestPart.loadTimeout (openTick o s)) =
      { openTick o s with tsq := { (openTick o s).tsq with
          state := some .done, phase := some (openTick o s).newCounter, doneAge := 0, doneUrgent := true
          oosCause := none, gateOpen := false, lidLock := false
          docket := some { d with test := some x.loadTimeout } } } := by
  have marked : (onTest TestPart.loadTimeout (openTick o s)).tsq.docket =
      some { d with test := some x.loadTimeout } := by
    simp [onTest, slot, Docket.onTest, test]
  have urgent : (onTest TestPart.loadTimeout (openTick o s)).doneIsUrgent = true :=
    doneIsUrgent_slot _ marked rfl
  rw [enterDone_eq, urgent, ← marked]
  rfl

/-- The end of the drain leaves the docket in DONE (R101). -/
theorem drained_done {d : Docket} {x : TestPart} (slot : s.tsq.docket = some d) (test : d.test = some x) :
    enterDone (openTick o s) =
      { openTick o s with tsq := { (openTick o s).tsq with
          state := some .done, phase := some (openTick o s).newCounter, doneAge := 0
          doneUrgent := x.verdict != .pass || !s.ilk.marks.isEmpty
          oosCause := none, gateOpen := false, lidLock := false } } := by
  rw [enterDone_eq, doneIsUrgent_slot (openTick o s) (by rw [openTick_docket, slot]) test, openTick_marks]

theorem holdTime_slot {d : Docket} (slot : s.tsq.docket = some d) : s.holdTime = d.holdTime.getD 0 := by
  simp only [State.holdTime, slot]

end

/-- Settles O44: what each input does in the states it belongs to and elsewhere, and for each timer the tick of its
expiry and every other tick. -/
theorem headMovesOn : Obligations.HeadMovesOn := by
  intro o s head
  dsimp only
  refine ⟨fun loading => ?_, fun idle => ?_, fun loading idle => ?_, ?_, fun filling => ?_, fun filling => ?_,
    fun p d x y loading runs slot test made => ?_, fun p d x draining runs slot test => ?_,
    fun p d holding runs slot => ?_, fun p waiting runs => ?_⟩
  · exact next_atHead head (seatRead_loading o s loading)
  · exact next_atHead head (seatRead_idle o s idle)
  · exact next_atHead head (seatRead_other o s loading idle)
  · exact next_atHead head (lidClosedRead_eq o s)
  · refine next_atHead head ((fillRead_filling o s filling).trans ?_)
    rw [← openTick_params o s]
    rfl
  · exact next_atHead head (fillRead_other o s filling)
  · obtain ⟨expires, early⟩ := expiry_taken o s loading runs
    subst made
    exact ⟨fun due => next_atHead head ((expires due).trans (loadTimeout_done o s slot test)),
      fun other => next_atHead head (early other)⟩
  · obtain ⟨expires, early⟩ := expiry_taken o s draining runs
    exact ⟨fun due => next_atHead head ((expires due).trans (drained_done o s slot test)),
      fun other => next_atHead head (early other)⟩
  · obtain ⟨expires, early⟩ := expiry_taken o s holding runs
    rw [← holdTime_slot s slot]
    exact ⟨fun due => next_atHead head (expires due), fun other => next_atHead head (early other)⟩
  · obtain ⟨expires, early⟩ := expiry_taken o s waiting runs
    exact ⟨fun due => next_atHead head (expires due), fun other => next_atHead head (early other)⟩

end Sys2Proof.Machine
end

section
/-! The end of a head's round trip (R88, R104, R109, R110, R152, R153): the unload and its timer, and what a CLEAR edge
makes of the marks and of OUT_OF_SERVICE. -/

namespace Sys2Proof.Machine

section
variable (o : TickOrder) (s : State)

/-! ### The unload (R104) -/

/-- The unload is complete with the gate open in UNLOADING. -/
theorem unloadRead_complete (at' : s.tsq.state = some .unloading) (gate : s.tsq.gateOpen = true) :
    unloadRead o s = enterIdle (endUnload
      (withInput (fun p => { p with seat := false, unloadClear := true }) (openTick o s))) :=
  if_pos (by simp [State.headIs, at', gate])

/-- The head goes on to IDLE, with its conditions of entry; the caller and the gate flag are cleared (R104, R152). -/
theorem unloadRead_ends (at' : s.tsq.state = some .unloading) (gate : s.tsq.gateOpen = true) :
    let t := unloadRead o s
    t = { openTick o s with
      inputs := { (openTick o s).inputs with seat := false, unloadClear := true }, tsq := t.tsq } ∧
    t.tsq.docket = s.tsq.docket ∧ t.tsq.caller = none ∧ t.tsq.gateFlag = false ∧
    IdleOrOutOfService false s.ilk.marks t := by
  dsimp only
  rw [unloadRead_complete o s at' gate, ← openTick_docket o s, ← openTick_marks o s]
  generalize openTick o s = z
  obtain ⟨frame, docket, caller, gateFlag, -⟩ :=
    enterIdle_kept (endUnload (withInput (fun p => { p with seat := false, unloadClear := true }) z))
  exact ⟨frame, docket, caller, gateFlag, enterIdle_goes (endUnload (withInput _ z))⟩

theorem unloadRead_other (other : s.tsq.state ≠ some .unloading ∨ s.tsq.gateOpen = false) :
    unloadRead o s = withInput (fun p => { p with seat := false, unloadClear := true }) (openTick o s) :=
  if_neg (by rcases other with out | shut <;> simp_all [State.headIs])

/-- The unload timer runs while the gate is open. -/
theorem unloadExpiry_open (gate : s.tsq.gateOpen = true) : unloadExpiry o s =
    if s.headIs .unloading && s.phaseExpires o (s.params.unloadTime * 20) then enterOos .unloadTimeout (openTick o s)
    else s := by
  unfold unloadExpiry
  rw [gate, Bool.and_true]
  rfl

/-! ### A CLEAR edge (R88, R110, R153) -/

/-- The CLEAR input as the edge is taken: active, and disarmed (R88). -/
def clearRead : State :=
  { openTick o s with
    inputs := { (openTick o s).inputs with clear := true }, ilk := { (openTick o s).ilk with clearArmed := false } }

/-- The marks whose cause is removed are cleared (R153). -/
def marksCleared : State := s.withIlk { s.ilk with marks := s.ilk.marks.filter fun c => !s.markRemoved c }

/-- OUT_OF_SERVICE is left for DONE with a docket, for IDLE without (R110). -/
def leaveOos : State := if s.tsq.docket.isSome then enterDone s else enterIdle s

theorem clearTaken_unarmed (unarmed : s.ilk.clearArmed = false) : clearTaken o s = s :=
  if_neg (by simp [unarmed])

theorem clearTaken_elsewhere (armed : s.ilk.clearArmed = true) (other : s.tsq.state ≠ some .outOfService) :
    clearTaken o s = clearRead o s :=
  (if_pos armed).trans (if_neg (mt (headIs_iff s _).mp other))

theorem clearTaken_outOfService (armed : s.ilk.clearArmed = true) (at' : s.tsq.state = some .outOfService) :
    clearTaken o s =
      if (marksCleared (clearRead o s)).oosRemoved then leaveOos (marksCleared (clearRead o s))
      else marksCleared (clearRead o s) :=
  (if_pos armed).trans (if_pos ((headIs_iff s _).mpr at'))

/-- Of the three sticky marks each has a cause of its own to be removed (R153). -/
theorem markRemoved_iff (c : Cause) : s.markRemoved c = true ↔
    (c = .overpressure ∧ s.vented = true) ∨ (c = .pressureSwitch ∧ s.inputs.psw = false) ∨
    (c = .sensorRange ∧ s.msu.levelRail = false ∧ s.msu.pressRail = false ∧ s.msu.tempRail = false) := by
  cases c <;> simp [State.markRemoved, and_assoc]

theorem mem_marksCleared (c : Cause) :
    c ∈ (marksCleared s).ilk.marks ↔ c ∈ s.ilk.marks ∧ ¬ s.markRemoved c = true := by
  simp [marksCleared]

/-- The cause of OUT_OF_SERVICE is removed: that of a mark once no mark stands (R110). -/
theorem oosRemoved_iff {k : Cause} (out : s.tsq.oosCause = some k)
    (known : k ∈ [.overpressure, .pressureSwitch, .sensorRange, .handoffFailed, .unloadTimeout, .orphan]) :
    s.oosRemoved = true ↔ k = .handoffFailed ∨ (k = .orphan ∧ s.inputs.seat = false) ∨
      (k = .unloadTimeout ∧ s.inputs.seat = false ∧ s.inputs.unloadClear = true) ∨
      (k ∈ [.overpressure, .pressureSwitch, .sensorRange] ∧ s.ilk.marks = []) := by
  unfold State.oosRemoved
  rw [out]
  cases k <;> simp at known ⊢

/-- Leaving OUT_OF_SERVICE changes the sequencer alone, and not its docket. -/
theorem leaveOos_kept : leaveOos s = { s with tsq := (leaveOos s).tsq } ∧ (leaveOos s).tsq.docket = s.tsq.docket := by
  unfold leaveOos
  split
  · exact ⟨rfl, rfl⟩
  · obtain ⟨frame, docket, -⟩ := enterIdle_kept s
    exact ⟨frame, docket⟩

section
variable {o s} (armed : s.ilk.clearArmed = true) (at' : s.tsq.state = some .outOfService)
include armed at'

/-- A CLEAR edge in OUT_OF_SERVICE changes the sequencer alone, once the marks are cleared. -/
theorem clearTaken_kept :
    clearTaken o s = { marksCleared (clearRead o s) with tsq := (clearTaken o s).tsq } ∧
    (clearTaken o s).tsq.docket = s.tsq.docket := by
  rw [clearTaken_outOfService o s armed at', ← openTick_docket o s]
  split
  · exact leaveOos_kept _
  · exact ⟨rfl, rfl⟩

theorem clearTaken_ilk : (clearTaken o s).ilk = (marksCleared (clearRead o s)).ilk :=
  (congrArg State.ilk (clearTaken_kept armed at').1 :)

/-- The cause removed, a head with a docket waits in DONE (R110, R163). -/
theorem clearTaken_done (removed : (marksCleared (clearRead o s)).oosRemoved = true)
    (holds : s.tsq.docket.isSome = true) :
    let t := clearTaken o s
    t.tsq.state = some .done ∧ t.tsq.doneAge = 0 ∧ t.tsq.oosCause = none ∧
    (t.tsq.doneUrgent = true ↔ t.ilk.marks ≠ [] ∨
      ∃ d x, s.tsq.docket = some d ∧ d.test = some x ∧ x.verdict ≠ .pass) := by
  have slot : (marksCleared (clearRead o s)).tsq.docket = s.tsq.docket := openTick_docket o s
  have left : clearTaken o s = enterDone (marksCleared (clearRead o s)) :=
    ((clearTaken_outOfService o s armed at').trans (if_pos removed)).trans (if_pos (slot ▸ holds))
  have urgent := doneIsUrgent_iff (marksCleared (clearRead o s))
  rw [slot] at urgent
  dsimp only
  rw [left]
  exact ⟨rfl, rfl, rfl, urgent⟩

/-- The cause removed, a head without a docket goes on to IDLE, with its conditions of entry (R92, R109, R110). -/
theorem clearTaken_idle (removed : (marksCleared (clearRead o s)).oosRemoved = true) (empty : s.tsq.docket = none) :
    IdleOrOutOfService (openTick o s).inputs.seat (clearTaken o s).ilk.marks (clearTaken o s) := by
  have slot : (marksCleared (clearRead o s)).tsq.docket = s.tsq.docket := openTick_docket o s
  have left : clearTaken o s = enterIdle (marksCleared (clearRead o s)) :=
    ((clearTaken_outOfService o s armed at').trans (if_pos removed)).trans (if_neg (by simp [slot, empty]))
  rw [clearTaken_ilk armed at', left]
  exact enterIdle_goes (marksCleared (clearRead o s))

/-- The marks that are left: those whose cause is not removed (R153). -/
theorem mem_marks_clearTaken (c : Cause) : c ∈ (clearTaken o s).ilk.marks ↔ c ∈ s.ilk.marks ∧
    ¬ ((c = .overpressure ∧ (openTick o s).vented = true) ∨
      (c = .pressureSwitch ∧ (openTick o s).inputs.psw = false) ∨
      (c = .sensorRange ∧ (openTick o s).msu.levelRail = false ∧ (openTick o s).msu.pressRail = false ∧
        (openTick o s).msu.tempRail = false)) := by
  rw [clearTaken_ilk armed at', mem_marksCleared, markRemoved_iff]
  exact openTick_marks o s ▸ Iff.rfl

end

end

/-- Settles O45: the unload with its timer, and the CLEAR edge unarmed, elsewhere and in OUT_OF_SERVICE, where the marks
are cleared first and the cause is judged by what is left. -/
theorem unloadAndClear : Obligations.UnloadAndClear := by
  intro o s head
  dsimp only
  refine ⟨fun at' gate => ?_, fun other => ?_, fun p at' gate runs => ?_, fun unarmed => ?_, fun armed other => ?_,
    fun k armed at' out known => ?_⟩
  · obtain ⟨frame, docket, caller, gateFlag, goes⟩ := unloadRead_ends o s at' gate
    refine ⟨_, next_atHead head rfl, goes, caller, gateFlag, docket, ?_, ?_, ?_, ?_, unloadRead_outsideHead o s⟩ <;>
      rw [frame]
  · exact next_atHead head (unloadRead_other o s other)
  · obtain ⟨expires, early⟩ := expiry_taken o s at' runs
    rw [← unloadExpiry_open o s gate] at expires early
    exact ⟨fun due =>
        ⟨_, next_atHead head (expires due), rfl, rfl, rfl, openTick_caller o s, rfl, openTick_docket o s⟩,
      fun other => next_atHead head (early other)⟩
  · exact next_atHead head (clearTaken_unarmed o s unarmed)
  · exact next_atHead head (clearTaken_elsewhere o s armed other)
  · obtain ⟨frame, docket⟩ := clearTaken_kept (o := o) armed at'
    have ilk := clearTaken_ilk (o := o) armed at'
    have judged := oosRemoved_iff (marksCleared (clearRead o s)) ((openTick_oosCause o s).trans out) known
    rw [← ilk] at judged
    refine ⟨_, next_atHead head rfl, docket, clearTaken_outsideHead o s, (congrArg State.inputs frame :),
      (congrArg State.msu frame :), (congrArg State.adm frame :), ?_, mem_marks_clearTaken armed at',
      fun removed holds => clearTaken_done armed at' (judged.mpr removed) holds,
      fun removed empty => clearTaken_idle armed at' (judged.mpr removed) empty, fun stands => ?_⟩
    · rw [ilk]
      rfl
    · rw [clearTaken_outOfService o s armed at', if_neg (mt judged.mp stands)]
      rfl

end Sys2Proof.Machine
end

section
/-! The admission at the end of a complete round (R114 to R120, R134): the share of a head and the address that lowers it,
the count ahead in the updated table, and the decision of a head in WAIT_RAMP. -/

namespace Sys2Proof.Machine

/-! ### The share and the mismatch address (R114, R115) -/

section
variable (s : State)

/-- K_eff is the least of the head's own K and the K of the TEST cards held (R114; log 12). -/
theorem State.effectiveK_least : s.effectiveK ≤ s.params.k ∧ (∀ a k, s.cardK a = some k → s.effectiveK ≤ k) ∧
    (s.effectiveK = s.params.k ∨ ∃ a, s.cardK a = some s.effectiveK) := by
  have mem (k : Nat) : k ∈ allAddrs.filterMap s.cardK ↔ ∃ a, s.cardK a = some k := by
    simp [List.mem_filterMap, mem_allAddrs]
  obtain ⟨own, least, attained⟩ := foldl_min_least (allAddrs.filterMap s.cardK) s.params.k
  exact ⟨own, fun a k carries => least k ((mem k).mpr ⟨a, carries⟩), attained.imp_right (mem _).mp⟩

/-- The card held for an address carries a K below the head's own (R115). -/
def State.holdsLowK (a : Addr) : Bool := (s.cardK a).any fun k => k < s.params.k

theorem State.holdsLowK_iff (a : Addr) : s.holdsLowK a = true ↔ ∃ k, s.cardK a = some k ∧ k < s.params.k := by
  simp [State.holdsLowK, Option.any_eq_true]

theorem State.lowKAddr_eq : s.lowKAddr = allAddrs.find? s.holdsLowK := by
  unfold State.lowKAddr
  congr 1
  funext a
  unfold State.holdsLowK
  cases s.cardK a <;> rfl

/-- The mismatch address is the lowest one that holds such a card. -/
theorem State.lowKAddr_lowest : (∀ a, s.lowKAddr = some a ↔
      s.holdsLowK a = true ∧ ∀ b : Addr, b.toNat < a.toNat → ¬ s.holdsLowK b = true) ∧
    (s.lowKAddr = none ↔ ∀ a, ¬ s.holdsLowK a = true) := by
  simp only [State.lowKAddr_eq, find_allAddrs_iff, find_allAddrs_none, Bool.not_eq_true, implies_true, and_self]

/-! ### The claim and the count ahead (R118, R119) -/

/-- An entry that counts ahead of the head: of rank 1, or of rank 2 and before it (R118). -/
def State.standsAhead (a : Addr) : Bool :=
  s.rankOne a || ((s.entry a).view.shows .test [5] && s.waitsBefore a s.ownAddr)

theorem State.countAhead_eq : s.countAhead = (allAddrs.filter s.standsAhead).length := rfl

variable {s}

theorem State.rankOne_iff (a : Addr) : s.rankOne a = true ↔
    (∃ v, (s.entry a).view = .intact v ∧ postRole v = some .test ∧ postState v = 6) ∨
    ((s.entry a).view = .unknown ∧ ∃ c, (s.entry a).card = some c ∧ c.role = .test) := by
  unfold State.rankOne
  rw [Bool.or_eq_true, View.shows_iff]
  cases (s.entry a).card <;> simp

/-- Two WAIT_RAMP posts stand in the order of the urgent flag, the wait age and the lower address (R118, Table 2-6). -/
theorem State.waitsBefore_iff {a b : Addr} {v w : PostWord} (first : (s.entry a).view = .intact v)
    (second : (s.entry b).view = .intact w) : s.waitsBefore a b = true ↔
      postArg w / 32 < postArg v / 32 ∨
      (postArg v / 32 = postArg w / 32 ∧ postArg w % 32 < postArg v % 32) ∨
      (postArg v = postArg w ∧ a.toNat < b.toNat) := by
  simp only [State.waitsBefore, first, second, View.arg, Bool.or_eq_true, Bool.and_eq_true, decide_eq_true_eq,
    beq_iff_eq]
  rw [arg_lt_iff, or_assoc, eq_comm (a := postArg w / 32)]

variable {w : PostWord} (own : (s.entry s.ownAddr).view = .intact w)
include own

theorem State.standsAhead_iff (a : Addr) : s.standsAhead a = true ↔
    (∃ v, (s.entry a).view = .intact v ∧ postRole v = some .test ∧ postState v = 6) ∨
    ((s.entry a).view = .unknown ∧ ∃ c, (s.entry a).card = some c ∧ c.role = .test) ∨
    (∃ v, (s.entry a).view = .intact v ∧ postRole v = some .test ∧ postState v = 5 ∧
      (postArg w / 32 < postArg v / 32 ∨
        (postArg v / 32 = postArg w / 32 ∧ postArg w % 32 < postArg v % 32) ∨
        (postArg v = postArg w ∧ a.toNat < s.ownAddr.toNat))) := by
  unfold State.standsAhead
  rw [Bool.or_eq_true, Bool.and_eq_true, State.rankOne_iff, View.shows_iff, or_assoc, ← exists_and_right]
  refine or_congr_right (or_congr_right (exists_congr fun v => ?_))
  rw [and_assoc, and_assoc]
  exact and_congr_right fun view => by rw [State.waitsBefore_iff view own]

theorem State.hasClaim_iff : s.hasClaim = true ↔ postRole w = some .test ∧ postState w = 5 := by
  simp [State.hasClaim, View.shows_iff, own]

end

/-! ### The decision (R119, R120) -/

section
variable (s : State)

/-- The entry to RAMPING: the limits from the docket's test_pressure, age and flag discarded (R97, R120, R134). -/
theorem enterRamping_eq : enterRamping s = { s with
    tsq := { s.tsq with state := some .ramping, lidLock := true, phase := some { ticks := 0, fresh := s.tsq.tickOpen } }
    msu := { s.msu with limits := some (pressureLimits s.params s.testPressure) }
    adm := { s.adm with waitAge := 0, urgent := false } } := rfl

theorem testPressure_docket {d : Docket} (slot : s.tsq.docket = some d) : s.testPressure = d.testPressure := by
  simp [State.testPressure, slot]

theorem admission_admits (waits : s.tsq.state = some .waitRamp) (claim : s.hasClaim = true)
    (room : s.countAhead < s.adm.kEff) : admission s = enterRamping s :=
  if_pos (by simp [State.headIs, waits, claim, room])

theorem admission_holdsBack (no : ¬ s.hasClaim = true ∨ s.adm.kEff ≤ s.countAhead) : admission s = s := by
  refine if_neg fun yes => ?_
  simp only [Bool.and_eq_true, decide_eq_true_eq] at yes
  obtain ⟨⟨-, claim⟩, room⟩ := yes
  exact no.elim (fun none' => none' claim) (fun full => by omega)

/-! ### The stages of a round's end at a head in WAIT_RAMP -/

theorem ageStep_waiting (waits : s.tsq.state = some .waitRamp) :
    ageStep s = { s with adm := { s.adm with waitAge := min 31 (s.adm.waitAge + 1) } } := by
  simp [ageStep, waits, State.withAdm]

/-- A return can be dropped in UNLOADING and in SAFE alone: elsewhere a drop leaves the head as it was (R49, R108). -/
theorem dropMessage_keepsHead (gate : s.tsq.state ≠ some .unloading) (safe : s.tsq.state ≠ some .safe) :
    (dropMessage s).tsq = s.tsq ∧ (dropMessage s).msu = s.msu ∧ (dropMessage s).adm = s.adm := by
  cases due : s.txq.find? TxMsg.exhausted with
  | none => simp [dropMessage_none s due]
  | some m =>
    rw [dropMessage_some m s due]
    generalize s.txq.eraseP TxMsg.exhausted = left
    cases m.kind with
    | docketReturn =>
      rw [droppedEffect, returnDropped_other (s.withTxq left) gate fun ⟨inSafe, _⟩ => safe inSafe]
      exact ⟨rfl, rfl, rfl⟩
    | _ => exact ⟨rfl, rfl, rfl⟩

variable (w : PostWord) (posts : List PostWord) (cell263 : Bool)

theorem completeRound_sameHead :
    (completeRound .test w posts cell263 s).ownAddr = s.ownAddr ∧
    (completeRound .test w posts cell263 s).params = s.params := by
  have outside := completeRound_outsideRound .test w posts cell263 s
  exact ⟨(congrArg State.ownAddr outside :), (congrArg State.params outside :)⟩

/-- Out of ROLE_CONFLICT a round's end at a head is the admission decision in the counted state (R120). -/
theorem completeRound_admission (free : s.lif.roleConflict = false) :
    ∃ l, completeRound .test w posts cell263 s = { admission (roundCounted .test w posts cell263 s) with lif := l } := by
  have out : (roundCounted .test w posts cell263 s).lif.roleConflict = false := by
    rw [roundCounted_lif]
    simp [free, State.seesTwin]
  have decides : roleStep .test (roundCounted .test w posts cell263 s) =
      admission (roundCounted .test w posts cell263 s) := if_neg (by simp [out])
  rw [completeRound_eq, decides]
  exact endRound_frame _

/-- The state that the decision finds: the sequencer as it was, the wait age advanced (R116). -/
theorem roundCounted_waiting (head : s.role = some .test) (waits : s.tsq.state = some .waitRamp) :
    let v := roundCounted .test w posts cell263 s
    v.tsq = s.tsq ∧ v.msu = s.msu ∧ v.adm.waitAge = min 31 (s.adm.waitAge + 1) ∧ v.adm.urgent = s.adm.urgent := by
  dsimp only
  have isHead := headWaited_isHead w posts cell263 s head
  obtain ⟨-, tsq, msu, adm, -⟩ := headWaited_frame w posts cell263 s
  obtain ⟨sameTsq, sameMsu, sameAdm⟩ := dropMessage_keepsHead s (by simp [waits]) (by simp [waits])
  rw [roundCounted_test, ← sameTsq, ← sameMsu, ← sameAdm, ← tsq, ← msu, ← adm]
  rw [← sameTsq, ← tsq] at waits
  generalize headWaited w posts cell263 s = u at isHead waits
  have aged := ageStep_waiting u waits
  have shared := refreshShare_head (ageStep u) (by rw [aged]; exact isHead)
  rw [shared, aged]
  exact ⟨rfl, rfl, rfl, rfl⟩

/-- The decision and the end of the part in the round leave what the decision reads: the table, the share and the
parameters. -/
theorem completeRound_decidedOn (free : s.lif.roleConflict = false) :
    let t := completeRound .test w posts cell263 s
    let v := roundCounted .test w posts cell263 s
    t.countAhead = v.countAhead ∧ t.hasClaim = v.hasClaim ∧ t.adm.kEff = v.adm.kEff ∧ t.params = v.params := by
  dsimp only
  obtain ⟨l, decided⟩ := completeRound_admission s w posts cell263 free
  rw [decided]
  generalize roundCounted .test w posts cell263 s = v
  unfold admission
  split <;> exact ⟨rfl, rfl, rfl, rfl⟩

/-! ### Both outcomes of the decision -/

section
variable {s w} (head : s.role = some .test) (waits : s.tsq.state = some .waitRamp) (free : s.lif.roleConflict = false)
include head waits free

theorem completeRound_admits (claim : (completeRound .test w posts cell263 s).hasClaim = true)
    (room : (completeRound .test w posts cell263 s).countAhead < (completeRound .test w posts cell263 s).adm.kEff) :
    let t := completeRound .test w posts cell263 s
    t.tsq = { s.tsq with
      state := some .ramping, lidLock := true, phase := some { ticks := 0, fresh := s.tsq.tickOpen } } ∧
    t.adm.waitAge = 0 ∧ t.adm.urgent = false ∧
    t.msu = { s.msu with limits := some (pressureLimits s.params s.testPressure) } := by
  dsimp only
  obtain ⟨ahead, claims, share, params⟩ := completeRound_decidedOn s w posts cell263 free
  obtain ⟨tsq, msu, -⟩ := roundCounted_waiting s w posts cell263 head waits
  obtain ⟨l, decided⟩ := completeRound_admission s w posts cell263 free
  rw [claims] at claim
  rw [ahead, share] at room
  rw [(completeRound_sameHead s w posts cell263).2] at params
  rw [decided, admission_admits _ (tsq ▸ waits) claim room, enterRamping_eq, params]
  unfold State.testPressure
  rw [tsq, msu]
  exact ⟨rfl, rfl, rfl, rfl⟩

theorem completeRound_holdsBack (no : ¬ (completeRound .test w posts cell263 s).hasClaim = true ∨
      (completeRound .test w posts cell263 s).adm.kEff ≤ (completeRound .test w posts cell263 s).countAhead) :
    let t := completeRound .test w posts cell263 s
    t.tsq = s.tsq ∧ t.msu = s.msu ∧ t.adm.waitAge = min 31 (s.adm.waitAge + 1) ∧ t.adm.urgent = s.adm.urgent := by
  dsimp only
  obtain ⟨ahead, claims, share, -⟩ := completeRound_decidedOn s w posts cell263 free
  obtain ⟨l, decided⟩ := completeRound_admission s w posts cell263 free
  rw [ahead, claims, share] at no
  rw [decided, admission_holdsBack _ no]
  exact roundCounted_waiting s w posts cell263 head waits

end

end

/-- Settles O37: the share from the cards of the table, then the decision, which reads the updated table and finds the
sequencer as it was. -/
theorem admissionAtRoundEnd : Obligations.AdmissionAtRoundEnd := by
  refine ⟨fun s => ?_, fun posts cell263 w s role posted due waits free => ?_⟩
  · obtain ⟨own, least, attained⟩ := s.effectiveK_least
    obtain ⟨lowest, absent⟩ := s.lowKAddr_lowest
    simp only [State.holdsLowK_iff, State.cardK_iff] at least attained lowest absent
    exact ⟨own, least, attained, lowest, absent⟩
  · obtain ⟨-, share, low, -⟩ := completeRound_head w posts cell263 s role
    obtain ⟨sameAddr, -⟩ := completeRound_sameHead s w posts cell263
    obtain ⟨ownView, -⟩ := completeRound_ownReading .test w posts cell263 s
    rw [← sameAddr] at ownView
    have claims := State.hasClaim_iff ownView
    refine ⟨_, execRoundEnd_due posts cell263 .test w s role posted due, share, low,
      ⟨_, State.countAhead_eq _, sameAddr ▸ State.standsAhead_iff ownView⟩, fun test state room => ?_, fun no => ?_⟩
    · obtain ⟨tsq, age, urgent, msu⟩ :=
        completeRound_admits posts cell263 role waits free (claims.mpr ⟨test, state⟩) room
      refine ⟨tsq, age, urgent, msu, fun d slot => ?_, ?_, ?_⟩
      · rw [msu, testPressure_docket s slot]
        rfl
      · rw [headOutputs, tsq]
        rfl
      · rw [headOutputs, tsq]
        rfl
    · exact completeRound_holdsBack posts cell263 role waits free (no.imp_left (mt claims.mp))

end Sys2Proof.Machine
end

section
/-! The arithmetic of a test (R126 to R128, R138 to R141): the rounded quotient, the steps of the expansion arithmetic, and
the verdict assembly with the repeat rule. -/

namespace Sys2Proof.Machine

/-! ### The rounded quotient (R128) -/

theorem roundDiv_ofNat (a b : Nat) : roundDiv a b = roundDivNat a b := if_pos (Int.natCast_nonneg a)

/-- A dividend below 0 rounds as the one above 0 does, with the sign turned. -/
theorem roundDiv_negSucc (n b : Nat) : roundDiv (Int.negSucc n) b = -(roundDivNat (n + 1) b : Int) :=
  if_neg (Int.not_le.mpr (Int.negSucc_lt_zero n))

/-- How far a rounded quotient lies from the dividend, in either sign. -/
theorem roundDiv_dist (a : Int) (b : Nat) :
    |roundDiv a b * b - a| = |(roundDivNat a.natAbs b : Int) * b - a.natAbs| ∧
    |roundDiv a b * b| = (roundDivNat a.natAbs b : Int) * b := by
  cases a with
  | ofNat n =>
    rw [Int.ofNat_eq_natCast, roundDiv_ofNat, Int.natAbs_natCast]
    exact ⟨rfl, abs_of_nonneg (by positivity)⟩
  | negSucc n =>
    rw [roundDiv_negSucc, Int.natAbs_negSucc, Int.negSucc_eq, neg_mul, abs_neg]
    refine ⟨?_, abs_of_nonneg (by positivity)⟩
    rw [← abs_neg]
    congr 1
    push_cast
    ring

/-- The nearest integer, a tie away from zero (R128). -/
theorem roundDiv_nearest (a : Int) {b : Nat} (pos : 0 < b) :
    2 * |roundDiv a b * b - a| ≤ b ∧ (2 * |roundDiv a b * b - a| = b → |a| < |roundDiv a b * b|) := by
  obtain ⟨dist, size⟩ := roundDiv_dist a b
  obtain ⟨above, below⟩ := roundDivNat_near a.natAbs b pos
  rw [dist, size, Int.natCast_natAbs]
  zify at above below
  generalize (roundDivNat a.natAbs b : Int) * b = r at *
  rcases abs_cases (r - |a|) with ⟨off, _⟩ | ⟨off, _⟩ <;> rw [off] <;> omega

theorem convertPressure_eq (p : Params) (code : BitVec 16) : convertPressure p code =
    if code.toNat ≤ p.pOff then 0 else roundDivNat ((code.toNat - p.pOff) * p.pGain) 4096 := by
  by_cases h : p.pOff < code.toNat
  · exact (if_pos h).trans (if_neg (Nat.not_le.mpr h)).symm
  · exact (if_neg h).trans (if_pos (Nat.not_lt.mp h)).symm

/-! ### The steps of the expansion arithmetic (R139) -/

/-- A test part with its six readings goes to the arithmetic with the total and the raw permanent expansion (R138). -/
theorem arithmetic_readings (p : Params) (d : Docket) {y : TestPart} {s0 st sp t0 tt tp : Nat} (hs0 : y.s0 = some s0)
    (hst : y.st = some st) (hsp : y.sp = some sp) (ht0 : y.t0 = some t0) (htt : y.tt = some tt) (htp : y.tp = some tp) :
    arithmetic p d y =
      expansion p d y (volume p s0 st - correction p t0 tt) (volume p s0 sp - correction p t0 tp) := by
  unfold arithmetic
  rw [hs0, hst, hsp, ht0, htt, htp]

/-- The permanent expansion: a raw one below 0 counts as 0. -/
def permanent (raw : Int) : Int := max 0 raw

/-- The expansion ratio in hundredths of a percent, without its fraction. -/
def expansionRatio (et raw : Int) : Nat := (permanent raw * 10000 / et).toNat

/-- The fields that stand once the permanent expansion is found not to exceed the total. -/
def TestPart.withExpansion (y : TestPart) (et raw : Int) : TestPart :=
  { y with et := some et, ep := some (permanent raw), ratio := some (expansionRatio et raw),
           ee := some (et - permanent raw) }

section
variable (p : Params) (d : Docket) (y : TestPart) {et raw : Int}

theorem permanent_nonneg (raw : Int) : 0 ≤ permanent raw := le_max_left 0 raw

theorem permanent_eq (raw : Int) : (if raw < 0 then 0 else raw) = permanent raw := by
  unfold permanent
  split <;> omega

theorem natAbs_ratio (raw : Int) (total : 0 ≤ et) :
    (permanent raw).natAbs * 10000 / et.natAbs = expansionRatio et raw := by
  unfold expansionRatio
  lift et to Nat using total
  lift permanent raw to Nat using permanent_nonneg raw with ep
  exact (Int.toNat_natCast _).symm

/-- The ratio of a permanent expansion within the total is no more than 100.00 percent. -/
theorem expansionRatio_le (raw : Int) (within : permanent raw ≤ et) : expansionRatio et raw ≤ 10000 := by
  have total : 0 ≤ et := (permanent_nonneg raw).trans within
  have least := permanent_nonneg raw
  rw [← natAbs_ratio raw total]
  exact Nat.div_le_of_le_mul (by omega)

theorem expansion_noExpansion (small : et < p.eTMin) :
    expansion p d y et raw = { y with et := some et, verdict := .invalid, cause := some .noExpansion } :=
  if_pos small

theorem expansion_negative (big : (p.eTMin : Int) ≤ et) (under : raw < -(p.nUnder : Int)) :
    expansion p d y et raw = { y with et := some et, verdict := .invalid, cause := some .negativePermanent } :=
  (if_neg (Int.not_lt.mpr big)).trans (if_pos under)

/-- The third step, when the first two give no verdict. -/
theorem expansion_third (big : (p.eTMin : Int) ≤ et) (borne : -(p.nUnder : Int) ≤ raw) :
    expansion p d y et raw =
      if et < permanent raw then
        { y with et := some et, ep := some (permanent raw), verdict := .invalid, cause := some .permExceedsTotal }
      else if d.ratioLimit.getD 0 < expansionRatio et raw then
        (y.withExpansion et raw).judged .condemn (some .expansionRatio)
      else if (match d.ree with | some r => decide ((r : Int) < et - permanent raw) | none => false) then
        (y.withExpansion et raw).judged .condemn (some .elasticOverRee)
      else (y.withExpansion et raw).judged .pass none := by
  have ratio := natAbs_ratio (et := et) raw (by omega)
  unfold expansion TestPart.withExpansion
  rw [if_neg (Int.not_lt.mpr big), if_neg (Int.not_lt.mpr borne)]
  simp only [permanent_eq, ratio]
  rfl

section
variable (big : (p.eTMin : Int) ≤ et) (borne : -(p.nUnder : Int) ≤ raw)
include big borne

theorem expansion_exceeds (exceeds : et < permanent raw) : expansion p d y et raw =
    { y with et := some et, ep := some (permanent raw), verdict := .invalid, cause := some .permExceedsTotal } :=
  (expansion_third p d y big borne).trans (if_pos exceeds)

section
variable (within : permanent raw ≤ et)
include within

theorem expansion_ratio (high : d.ratioLimit.getD 0 < expansionRatio et raw) :
    expansion p d y et raw = (y.withExpansion et raw).judged .condemn (some .expansionRatio) :=
  ((expansion_third p d y big borne).trans (if_neg (Int.not_lt.mpr within))).trans (if_pos high)

variable (low : expansionRatio et raw ≤ d.ratioLimit.getD 0)
include low

theorem expansion_ree {r : Nat} (limit : d.ree = some r) (elastic : (r : Int) < et - permanent raw) :
    expansion p d y et raw = (y.withExpansion et raw).judged .condemn (some .elasticOverRee) := by
  rw [expansion_third p d y big borne, if_neg (Int.not_lt.mpr within), if_neg (Nat.not_lt.mpr low), limit]
  exact if_pos (decide_eq_true elastic)

theorem expansion_pass (rest : ∀ r, d.ree = some r → et - permanent raw ≤ (r : Int)) :
    expansion p d y et raw = (y.withExpansion et raw).judged .pass none := by
  rw [expansion_third p d y big borne, if_neg (Int.not_lt.mpr within), if_neg (Nat.not_lt.mpr low)]
  refine if_neg ?_
  cases limit : d.ree with
  | none => simp
  | some r => simpa using rest r limit

end

end

/-- A verdict of the last three steps needs a total of the least size and a permanent expansion within it. -/
theorem expansion_judged (judged : (expansion p d y et raw).verdict = .pass ∨
      (expansion p d y et raw).cause = some .expansionRatio ∨ (expansion p d y et raw).cause = some .elasticOverRee) :
    (p.eTMin : Int) ≤ et ∧ permanent raw ≤ et := by
  by_contra early
  by_cases big : (p.eTMin : Int) ≤ et
  · by_cases borne : -(p.nUnder : Int) ≤ raw
    · have exceeds : et < permanent raw := Int.not_le.mp fun within => early ⟨big, within⟩
      simp [expansion_exceeds p d y big borne exceeds] at judged
    · simp [expansion_negative p d y big (Int.not_le.mp borne)] at judged
  · simp [expansion_noExpansion p d y (Int.not_le.mp big)] at judged

end

/-- Settles O49: the six readings give the total and the raw permanent expansion, and each step is one equation. -/
theorem expansionArithmeticSteps : Obligations.ExpansionArithmeticSteps := by
  intro p d y s0 st sp t0 tt tp hs0 hst hsp ht0 htt htp
  dsimp only
  rw [arithmetic_readings p d hs0 hst hsp ht0 htt htp]
  refine ⟨expansion_noExpansion p d y, expansion_negative p d y, fun big borne => ⟨expansion_exceeds p d y big borne,
    expansion_ratio p d y big borne, fun r within low limit => expansion_ree p d y big borne within low limit,
    expansion_pass p d y big borne⟩, fun judged => ?_⟩
  obtain ⟨big, within⟩ := expansion_judged p d y judged
  exact ⟨big, permanent_nonneg _, within, expansionRatio_le _ within⟩

/-! ### The verdict assembly and the repeat rule (R140, R141) -/

theorem mem_repeatSet_iff (c : Cause) : c.inRepeatSet = true ↔
    c ∈ [.leakDrop, .overband, .rampTimeout, .unsettled, .creep, .noExpansion, .negativePermanent, .permExceedsTotal] := by
  simp [Cause.inRepeatSet, or_assoc]

/-- An INVALID of a cause of the repeat set (R141). -/
def TestPart.Repeats (y : TestPart) : Prop :=
  y.verdict = .invalid ∧ ∃ c, y.cause = some c ∧
    c ∈ [.leakDrop, .overband, .rampTimeout, .unsettled, .creep, .noExpansion, .negativePermanent, .permExceedsTotal]

theorem repeatRule_repeats {y : TestPart} (repeats : y.Repeats) :
    repeatRule true y = y.judged .condemn (some .repeatInvalid) := by
  obtain ⟨invalid, c, cause, listed⟩ := repeats
  unfold repeatRule
  rw [invalid, cause]
  exact if_pos ((mem_repeatSet_iff c).mpr listed)

theorem repeatRule_other {retest : Bool} {y : TestPart} (other : retest = false ∨ ¬ y.Repeats) :
    repeatRule retest y = y := by
  unfold repeatRule
  split
  · rename_i c invalid cause
    refine if_neg fun taken => ?_
    obtain ⟨again, listed⟩ := Bool.and_eq_true_iff.mp taken
    rcases other with first | unlisted
    · simp [first] at again
    · exact unlisted ⟨invalid, c, cause, (mem_repeatSet_iff c).mp listed⟩
  · rfl

section
variable (p : Params) (d : Docket) {y : TestPart}

theorem assembleVerdict_overpressure (listed : .overpressure ∈ y.conditions) :
    assembleVerdict p d y = y.judged .condemn (some .overpressure) :=
  if_pos (List.contains_iff_mem.mpr listed)

theorem assembleVerdict_conditions {c : Cause} {rest : List Cause} (list : y.conditions = c :: rest)
    (other : .overpressure ∉ y.conditions) :
    assembleVerdict p d y = repeatRule d.retest (y.judged .invalid (some c)) := by
  unfold assembleVerdict
  rw [if_neg (mt List.contains_iff_mem.mp other), list]

theorem assembleVerdict_arithmetic (empty : y.conditions = []) :
    assembleVerdict p d y = repeatRule d.retest (arithmetic p d y) := by
  unfold assembleVerdict
  rw [if_neg (by simp [empty]), empty]

/-- The verdict of a docket is that of a first test, under the repeat rule (R141). -/
theorem assembleVerdict_repeatRule (y : TestPart) :
    assembleVerdict p d y = repeatRule d.retest (assembleVerdict p { d with retest := false } y) := by
  have first (x : TestPart) : repeatRule false x = x := repeatRule_other (.inl rfl)
  by_cases listed : .overpressure ∈ y.conditions
  · rw [assembleVerdict_overpressure p d listed, assembleVerdict_overpressure p _ listed]
    exact (repeatRule_other (.inr fun ⟨invalid, _⟩ => nomatch invalid)).symm
  · cases list : y.conditions with
    | nil =>
      have unread : arithmetic p { d with retest := false } y = arithmetic p d y := rfl
      rw [assembleVerdict_arithmetic p d list, assembleVerdict_arithmetic p _ list, first, unread]
    | cons c rest =>
      rw [assembleVerdict_conditions p d list listed, assembleVerdict_conditions p _ list listed, first]

end

/-- Settles O50: the three cases of the assembly on a first test, and the repeat rule on what a first test gives. -/
theorem repeatRuleCondemns : Obligations.RepeatRuleCondemns := by
  intro p d y
  have first (x : TestPart) : repeatRule false x = x := repeatRule_other (.inl rfl)
  dsimp only
  refine ⟨fun listed => assembleVerdict_overpressure p _ listed, fun c rest list other => ?_, fun empty => ?_,
    fun again listed => ?_, fun other => ?_⟩
  · exact (assembleVerdict_conditions p _ list other).trans (first _)
  · exact (assembleVerdict_arithmetic p _ empty).trans (first _)
  · rw [assembleVerdict_repeatRule, again]
    exact repeatRule_repeats listed
  · rw [assembleVerdict_repeatRule]
    exact repeatRule_other other

end Sys2Proof.Machine
end

section
/-! What a tick senses (R88, R124 to R128, R145, R162; logs 3, 10, 25): the inputs and channels as read, what the later
stages of a sample leave of them, and the conditions that stay disarmed. -/

namespace Sys2Proof.Machine

/-! ### The channels as read (R125, R126) -/

theorem decide_rail (code : BitVec 16) : decide (65520 ≤ code.toNat ∨ code.toNat ≤ 15) = atRail code :=
  Bool.decide_or _ _

/-- The current pressure of a tick: none at a rail, else converted and rounded (R126, R128). -/
theorem pressure_read (params : Params) (code : BitVec 16) :
    (if atRail code then none
      else if code.toNat ≤ params.pOff then some 0
      else some ((2 * ((code.toNat - params.pOff) * params.pGain) + 4096) / (2 * 4096))) =
    if atRail code then none else some (convertPressure params code) := by
  rw [convertPressure_eq]
  split
  · rfl
  · exact (apply_ite some _ _ _).symm

/-! ### What the later stages of a sample leave of the reading -/

/-- What the tick read stands: the inputs, the rails, the current pressure and the mark of an open tick; and in a closed
tick no further sample comes to be owed to the peak (log 10). -/
structure KeepsReading (s t : State) : Prop where
  inputs : t.inputs = s.inputs
  tickOpen : t.tsq.tickOpen = s.tsq.tickOpen
  owed : s.tsq.tickOpen = false → t.tsq.peakOwed = s.tsq.peakOwed
  level : t.msu.levelRail = s.msu.levelRail
  press : t.msu.pressRail = s.msu.pressRail
  temp : t.msu.tempRail = s.msu.tempRail
  pressure : t.msu.pressure = s.msu.pressure

/-- An update of other fields keeps the reading. -/
theorem keepsReading_update {s t : State} (inputs : t.inputs = s.inputs := by rfl)
    (tickOpen : t.tsq.tickOpen = s.tsq.tickOpen := by rfl) (owed : t.tsq.peakOwed = s.tsq.peakOwed := by rfl)
    (level : t.msu.levelRail = s.msu.levelRail := by rfl) (press : t.msu.pressRail = s.msu.pressRail := by rfl)
    (temp : t.msu.tempRail = s.msu.tempRail := by rfl) (pressure : t.msu.pressure = s.msu.pressure := by rfl) :
    KeepsReading s t :=
  ⟨inputs, tickOpen, fun _ => owed, level, press, temp, pressure⟩

theorem KeepsReading.refl (s : State) : KeepsReading s s := keepsReading_update

theorem KeepsReading.trans {s t u : State} (h : KeepsReading s t) (g : KeepsReading t u) : KeepsReading s u where
  inputs := g.inputs.trans h.inputs
  tickOpen := g.tickOpen.trans h.tickOpen
  owed := fun closed => (g.owed (h.tickOpen.trans closed)).trans (h.owed closed)
  level := g.level.trans h.level
  press := g.press.trans h.press
  temp := g.temp.trans h.temp
  pressure := g.pressure.trans h.pressure

theorem keepsReading_ite {c : Prop} [Decidable c] {s a b : State} (yes : KeepsReading s a) (no : KeepsReading s b) :
    KeepsReading s (if c then a else b) := by
  split
  · exact yes
  · exact no

theorem latchOne_keepsReading (c : Cause) (s : State) : KeepsReading s (latchOne c s) :=
  keepsReading_ite (keepsReading_ite keepsReading_update keepsReading_update) (.refl s)

theorem latchAll_keepsReading (cs : List Cause) (s : State) : KeepsReading s (latchAll cs s) := by
  induction cs generalizing s with
  | nil => exact .refl s
  | cons c cs ih => exact (latchOne_keepsReading c s).trans (ih _)

theorem KeepsReading.onTest {s u : State} (h : KeepsReading s u) (f : TestPart → TestPart) :
    KeepsReading s (onTest f u) := h.trans keepsReading_update

theorem KeepsReading.assembleSlot {s u : State} (h : KeepsReading s u) : KeepsReading s (assembleSlot u) :=
  h.trans keepsReading_update

theorem KeepsReading.enterLocked {s u : State} (h : KeepsReading s u) (k : HeadState) :
    KeepsReading s (enterLocked k u) := h.trans keepsReading_update

theorem KeepsReading.abandonPhase {s u : State} (h : KeepsReading s u) : KeepsReading s (abandonPhase u) :=
  h.trans keepsReading_update

theorem KeepsReading.withAdm {s u : State} (h : KeepsReading s u) (x : Adm) : KeepsReading s (u.withAdm x) :=
  h.trans keepsReading_update

theorem KeepsReading.leaveHolding {s u : State} (h : KeepsReading s u) : KeepsReading s (leaveHolding u) :=
  (h.onTest _).trans keepsReading_update

/-- SAFE entered in a closed tick owes no sample to the peak. -/
theorem enterSafe_keepsReading (s : State) : KeepsReading s (enterSafe s) := by
  have inTest (h : HeadState) (u : State) (kept : KeepsReading s u) : KeepsReading s (u.withTsq { u.tsq with
      state := some .safe, phase := none, safeFrom := some h, returnState := none
      peakOwed := u.tsq.peakOwed || (u.tsq.tickOpen && (h == .ramping || h == .holding)) }) :=
    { inputs := kept.inputs, tickOpen := kept.tickOpen, level := kept.level, press := kept.press, temp := kept.temp
      pressure := kept.pressure
      owed := fun closed => by simp [kept.tickOpen, closed, kept.owed closed] }
  unfold enterSafe
  split
  · exact .refl s
  · exact .refl s
  · refine keepsReading_ite (inTest _ _ ?_) keepsReading_update
    split
    · exact ((KeepsReading.refl s).leaveHolding.abandonPhase.withAdm _)
    · exact keepsReading_update

theorem enterIdle_keepsReading (s : State) : KeepsReading s (enterIdle s) := by
  unfold enterIdle
  refine keepsReading_ite keepsReading_update ?_
  split
  · exact keepsReading_update
  · exact keepsReading_update

theorem reenter_keepsReading (h : HeadState) (s : State) : KeepsReading s (reenter h s) := by
  cases h with
  | idle => exact enterIdle_keepsReading s
  | unloading => exact keepsReading_ite keepsReading_update keepsReading_update
  | _ => exact keepsReading_update

theorem leaveSafe_keepsReading (s : State) : KeepsReading s (leaveSafe s) := by
  unfold leaveSafe
  split
  · exact keepsReading_ite keepsReading_update keepsReading_update
  · split
    · exact KeepsReading.trans keepsReading_update (reenter_keepsReading _ _)
    · exact .refl s

theorem chooseNext_keepsReading (s : State) : KeepsReading s (chooseNext s) := by
  have left (i : Ilk) : KeepsReading s (leaveSafe (s.withIlk i)) :=
    KeepsReading.trans keepsReading_update (leaveSafe_keepsReading _)
  unfold chooseNext
  split
  · exact left _
  · exact keepsReading_ite keepsReading_update (left _)

theorem respond_keepsReading (s : State) : KeepsReading s (respond s) := by
  unfold respond
  split
  · exact .refl s
  · split
    · exact (enterSafe_keepsReading s).trans (chooseNext_keepsReading _)
    · exact keepsReading_ite (chooseNext_keepsReading s) (.refl s)

theorem raise_keepsReading (cs : List Cause) (s : State) : KeepsReading s (raise cs s) :=
  (latchAll_keepsReading cs s).trans (respond_keepsReading _)

theorem enterHolding_keepsReading (q : Nat) (s : State) : KeepsReading s (enterHolding q s) := by
  have entered : KeepsReading s (enterReading .holding s) := keepsReading_update
  exact (entered.onTest _).trans keepsReading_update

theorem usePressure_keepsReading (owed : Bool) (s : State) : KeepsReading s (usePressure owed s) := by
  have peak (q : Nat) : KeepsReading s (raisePeak q s) := (KeepsReading.refl s).onTest _
  unfold usePressure
  dsimp only
  split
  · exact keepsReading_ite ((peak _).trans (enterHolding_keepsReading _ _)) (peak _)
  · exact (peak _).trans keepsReading_update
  · exact keepsReading_ite keepsReading_update (.refl s)
  · exact keepsReading_ite (peak _) (.refl s)
  · exact .refl s

theorem takeReading_keepsReading (h : HeadState) (sum t : Nat) (s : State) :
    KeepsReading s (takeReading h sum t s) := by
  have entered (f : TestPart → TestPart) : KeepsReading s (onTest f s) := (KeepsReading.refl s).onTest f
  cases h with
  | zeroing => exact (((entered _).enterLocked _).abandonPhase).withAdm _
  | holding => exact ((entered _).leaveHolding.enterLocked _).abandonPhase
  | settling => exact ((entered _).assembleSlot.enterLocked _).abandonPhase
  | _ => exact .refl s

theorem judgeWindow_keepsReading (h : HeadState) (w : Window) (s : State) : KeepsReading s (judgeWindow h w s) := by
  have reported (c : Cause) (v : Window) : KeepsReading s (raise [c] (withWindow v s)) :=
    KeepsReading.trans keepsReading_update (raise_keepsReading _ _)
  exact keepsReading_ite (keepsReading_ite (takeReading_keepsReading h _ _ s) (reported _ _))
    (keepsReading_ite (reported _ _) keepsReading_update)

theorem windowStage_keepsReading (phase : Option HeadState) (x : Sample) (s : State) :
    KeepsReading s (windowStage phase x s) := by
  cases phase with
  | none => exact .refl s
  | some h =>
    exact keepsReading_ite (keepsReading_ite keepsReading_update (keepsReading_ite (.refl s)
      (keepsReading_ite keepsReading_update (keepsReading_ite (judgeWindow_keepsReading h _ s) keepsReading_update))))
      (.refl s)

/-- A sample leaves what its tick read (log 9: the reading is the first stage). -/
theorem headSample_keepsReading (p : Pins) (x : Sample) (s : State) :
    KeepsReading (tickRead p x s) (headSample p x s) :=
  ((usePressure_keepsReading _ _).trans (raise_keepsReading _ _)).trans (windowStage_keepsReading _ _ _)

/-! ### The arming of conditions (R145) -/

/-- The cause of a condition is present at a tick: a rail, a level as read, the line silent, or a timer expiry taken
ahead of the tick's sample (R145; log 3). -/
def CausePresentAt (p : Pins) (x : Sample) (s : State) (c : Cause) : Prop :=
  (c = .sensorRange ∧ (atRail x.level || atRail x.press || atRail x.temp) = true) ∨ (c = .estop ∧ p.estop = true) ∨
  (c = .lidOpen ∧ p.lidClosed = false) ∨ (c = .lineSilence ∧ s.lif.lineSilent = true) ∨
  ((c = .fillTimeout ∨ c = .rampTimeout) ∧ s.ilk.expired = some c)

section
variable (p : Pins) (x : Sample) (s : State)

theorem tickRead_inputs : (tickRead p x s).inputs = p := by
  unfold tickRead advanceTimers
  cases h : s.ilk.inForce <;> simp [h, rearm, readChannels, senseInputs]

/-- A response in force has its timer advanced at a tick; the rest of the interlock unit is read (R88, R145, R147). -/
theorem tickRead_ilk : (tickRead p x s).ilk = { s.ilk with
    pswArmed := s.ilk.pswArmed || !p.psw, abortArmed := s.ilk.abortArmed || !p.abort
    clearArmed := s.ilk.clearArmed || !p.clear, expired := none
    timer := (tickRead p x s).ilk.timer, disarmed := (tickRead p x s).ilk.disarmed } := by
  unfold tickRead advanceTimers
  cases h : s.ilk.inForce <;> simp [h, rearm, readChannels, senseInputs]

/-- A condition is armed again when its cause is absent at the tick (R145). -/
theorem mem_tickRead_disarmed (c : Cause) :
    c ∈ (tickRead p x s).ilk.disarmed ↔ c ∈ s.ilk.disarmed ∧ CausePresentAt p x s c := by
  have filtered : ∃ u : State, u.inputs = p ∧ u.lif = s.lif ∧ u.ilk.expired = s.ilk.expired ∧
      u.anyRail = (atRail x.level || atRail x.press || atRail x.temp) ∧
      (tickRead p x s).ilk.disarmed = s.ilk.disarmed.filter u.causePresent := by
    refine ⟨readChannels x (advanceTimers (senseInputs p s)), ?_⟩
    unfold tickRead advanceTimers
    cases h : s.ilk.inForce <;> simp [h, rearm, readChannels, senseInputs, State.anyRail]
  obtain ⟨u, inputs, lif, expired, rails, disarmed⟩ := filtered
  rw [disarmed, List.mem_filter]
  refine and_congr_right fun _ => ?_
  unfold CausePresentAt
  cases c <;> simp [State.causePresent, inputs, lif, expired, rails]

/-- What stands disarmed after a sample: what its tick left so, and the reports of the sample. -/
theorem headSample_disarmed :
    (∀ c ∈ s.ilk.disarmed, CausePresentAt p x s c → c ∈ (headSample p x s).ilk.disarmed) ∧
    (∀ c ∈ (headSample p x s).ilk.disarmed, CausePresentAt p x s c ∨
      c ∈ [.overpressure, .leakDrop, .overband, .unsettled, .creep, .tempRange]) := by
  obtain ⟨-, kept, brought⟩ := headSample_raisedOnly p x s
  refine ⟨fun c out present => kept c ((mem_tickRead_disarmed p x s c).mpr ⟨out, present⟩), fun c out => ?_⟩
  rcases brought c out with still | report
  · exact .inl ((mem_tickRead_disarmed p x s c).mp still).2
  · refine (List.mem_append.mp report).imp_left fun ranged => .inl ?_
    have rails : (tickRead p x s).anyRail = (atRail x.level || atRail x.press || atRail x.temp) := by
      rw [State.anyRail, (tickRead_parts p x s).2]
    rw [rails] at ranged
    split at ranged
    · rename_i rail
      exact ⟨List.mem_singleton.mp ranged, rail⟩
    · simp at ranged

/-- The interlock unit after a sample, but for the latch, the response and the disarmed conditions (R88, R145). -/
theorem headSample_armed :
    (headSample p x s).ilk.pswArmed = (s.ilk.pswArmed || !p.psw) ∧
    (headSample p x s).ilk.abortArmed = (s.ilk.abortArmed || !p.abort) ∧
    (headSample p x s).ilk.clearArmed = (s.ilk.clearArmed || !p.clear) ∧ (headSample p x s).ilk.expired = none := by
  obtain ⟨frame, -⟩ := headSample_raisedOnly p x s
  rw [frame, tickRead_ilk]
  exact ⟨rfl, rfl, rfl, rfl⟩

/-- A timer expiry taken ahead of its sample is marked until the tick closes (R145; log 3). -/
theorem expiryCause_expired (c : Cause) : (expiryCause (.beforeSample p x) c s).ilk.expired = some c := by
  obtain ⟨frame, -⟩ := raise_raisedOnly [c]
    ((openTick (.beforeSample p x) s).withIlk { (openTick (.beforeSample p x) s).ilk with expired := some c })
  exact (congrArg Ilk.expired frame :)

/-- SAMPLE_TICK at a head (R124). -/
theorem exec_sampleTick (role : s.role = some .test) : exec (.sampleTick p x) s = .next (headSample p x s) := by
  show execSampleTick p x s = _
  unfold execSampleTick
  rw [role]

/-- SAMPLE_TICK at DISPOSE: each arrival timer is advanced to its length (R162; log 25). -/
theorem disposeTick_eq : disposeTick p s = { s with
    inputs := p
    dsu := { s.dsu with
      clearArmed := s.dsu.clearArmed || !p.clear
      arrival := s.dsu.arrival.map fun a =>
        if a.ticks < s.params.arrivalTime * 20 then { a with ticks := a.ticks + 1 } else a } } := by
  have advanced (a : Arrival) :
      ({ a with ticks := if a.ticks < ticks s.params.arrivalTime then a.ticks + 1 else a.ticks } : Arrival) =
      if a.ticks < s.params.arrivalTime * 20 then { a with ticks := a.ticks + 1 } else a :=
    apply_ite (fun n => ({ a with ticks := n } : Arrival)) (a.ticks < s.params.arrivalTime * 20) _ _
  unfold disposeTick
  simp only [advanced]
  rfl

end

/-- Settles O46: the arithmetic of a sample, the reading of a tick by an event and by SAMPLE_TICK at each role, and the
conditions that stay disarmed. -/
theorem sampleTickSenses : Obligations.SampleTickSenses := by
  refine ⟨fun p code => ⟨convertPressure_eq p code, rfl⟩, fun a b pos => roundDiv_nearest a pos, roundDiv_ofNat,
    fun s => rfl, fun p x s => ?_⟩
  dsimp only
  simp only [decide_rail, pressure_read]
  refine ⟨openTick_before p x s, fun role => ?_, fun role => ?_, fun role => ?_, fun h c n role at' runs =>
    ⟨fun ⟨which, due⟩ => ?_, fun ⟨which, due⟩ => ?_⟩⟩
  · show execSampleTick p x s = _
    unfold execSampleTick
    rw [role]
    rfl
  · rw [← disposeTick_eq]
    show execSampleTick p x s = _
    unfold execSampleTick
    rw [role]
  · have kept := headSample_keepsReading p x s
    obtain ⟨tsq, msu⟩ := tickRead_parts p x s
    obtain ⟨psw, abort, clear, expired⟩ := headSample_armed p x s
    have closed : (tickRead p x s).tsq.tickOpen = false := by rw [tsq]
    refine ⟨_, exec_sampleTick p x s role, kept.inputs.trans (tickRead_inputs p x s), kept.tickOpen.trans closed,
      (kept.owed closed).trans (by rw [tsq]), kept.level.trans (by rw [msu]), kept.press.trans (by rw [msu]),
      kept.temp.trans (by rw [msu]), kept.pressure.trans (by rw [msu]), psw, abort, clear,
      headSample_outsideHead p x s, expired, headSample_disarmed p x s⟩
  · obtain ⟨rfl, rfl⟩ := Prod.mk.inj which
    exact ⟨_, next_atHead role ((expiry_taken _ s at' runs).1 due), expiryCause_expired p x s _⟩
  · obtain ⟨rfl, rfl⟩ := Prod.mk.inj which
    exact ⟨_, next_atHead role ((expiry_taken _ s at' runs).1 due), expiryCause_expired p x s _⟩

end Sys2Proof.Machine
end

section
/-! What a sample comes to with its pressure in range (R124 to R126, R134 to R137; log 9): the state once the tick is read
and the pressure used, the reports made there, and what a condition raised there does. -/

namespace Sys2Proof.Machine

section
variable {p : Pins} {x : Sample} {s u : State} {h : HeadState} {slot : Option Docket}

/-! ### The state after the use of the pressure -/

/-- The level or the temperature is at a rail (R125). -/
def otherRail (x : Sample) : Bool := atRail x.level || atRail x.temp

/-- The head stands in state `h` with docket slot `slot` once a sample with its pressure in range has been read and its
pressure used: the tick is closed, its inputs and channels are read, no response has come, and what is still disarmed
was disarmed with its cause present (R88, R125, R126, R145). -/
structure SampleUsed (p : Pins) (x : Sample) (s : State) (h : HeadState) (slot : Option Docket) (u : State) : Prop where
  state : u.tsq.state = some h
  closed : u.tsq.tickOpen = false
  docket : u.tsq.docket = slot
  level : u.msu.levelRail = atRail x.level
  press : u.msu.pressRail = false
  temp : u.msu.tempRail = atRail x.temp
  pressure : u.msu.pressure = some (convertPressure s.params x.press)
  limits : u.msu.limits = s.msu.limits
  inputs : u.inputs = p
  params : u.params = s.params
  stamp : u.roundStamp = s.roundStamp
  free : u.ilk.inForce = none
  quiet : u.ilk.latched = []
  disarmed : ∀ c ∈ u.ilk.disarmed, c ∈ s.ilk.disarmed ∧ CausePresentAt p x s c

/-- The tick as read (R88, R91, R125, R126, R145). -/
theorem tickRead_used (at' : s.tsq.state = some h) (free : s.ilk.inForce = none) (quiet : s.ilk.latched = [])
    (range : atRail x.press = false) : SampleUsed p x s h s.tsq.docket (tickRead p x s) := by
  have disarmed := mem_tickRead_disarmed p x s
  rw [tickRead_eq p x s free] at disarmed ⊢
  exact ⟨at', rfl, rfl, rfl, range, rfl, if_neg (by simp [range]), rfl, rfl, rfl, rfl, free, quiet,
    fun c out => (disarmed c).mp out⟩

theorem SampleUsed.onTest (used : SampleUsed p x s h slot u) (f : TestPart → TestPart) :
    SampleUsed p x s h (slot.map (Docket.onTest f)) (onTest f u) :=
  { used with docket := congrArg (Option.map (Docket.onTest f)) used.docket }

theorem SampleUsed.addHold (used : SampleUsed p x s h slot u) (q : Nat) : SampleUsed p x s h slot (addHold q u) :=
  { used with }

theorem SampleUsed.withWindow (used : SampleUsed p x s h slot u) (w : Window) :
    SampleUsed p x s h slot (withWindow w u) := { used with }

theorem SampleUsed.enterReading (used : SampleUsed p x s h slot u) (k : HeadState) :
    SampleUsed p x s k slot (enterReading k u) := { used with state := rfl }

theorem SampleUsed.enterHolding (used : SampleUsed p x s h slot u) (q : Nat) :
    SampleUsed p x s .holding (slot.map (Docket.onTest fun t => { t with holdStart := some s.roundStamp }))
      (enterHolding q u) := by
  have entered := (used.enterReading .holding).onTest fun t => { t with holdStart := some u.roundStamp }
  rw [← used.stamp]
  exact { entered with }

/-! ### The reports made there (R125, R135) -/

theorem SampleUsed.anyRail (used : SampleUsed p x s h slot u) : u.anyRail = otherRail x := by
  rw [State.anyRail, used.level, used.press, used.temp, Bool.or_false]
  rfl

theorem SampleUsed.reports_outside (used : SampleUsed p x s h slot u) (out : h ≠ .holding) :
    sampleReports u = if otherRail x then [.sensorRange] else [] := by
  rw [sampleReports_quiet u (.inl (by simp [State.headIs, used.state, out])), used.anyRail]

theorem SampleUsed.reports_holding (used : SampleUsed p x s .holding slot u) {l : Limits}
    (limits : s.msu.limits = some l) : sampleReports u =
      (if otherRail x then [.sensorRange] else []) ++ holdReports l (convertPressure s.params x.press) := by
  rw [sampleReports, used.anyRail, (headIs_iff u .holding).mpr used.state, used.pressure, used.limits, limits]

/-- Within the band a hold sample reports nothing (R135). -/
theorem holdReports_none {l : Limits} {q : Nat} (cond : q < l.cond) (top : q ≤ l.top) (low : l.low ≤ q) :
    holdReports l q = [] := by
  simp [holdReports, Nat.not_le.mpr cond, Nat.not_lt.mpr top, Nat.not_lt.mpr low]

/-- With nothing to report, the sample goes on to the window (log 9). -/
theorem SampleUsed.feeds (used : SampleUsed p x s h slot u)
    (made : usePressure s.tsq.peakOwed (tickRead p x s) = u) (none' : sampleReports u = []) :
    headSample p x s = windowStage s.numberedPhase x u := by
  rw [headSample_stages p x s u made, none', raise_nil u used.quiet]

/-- A head in a phase that takes no reading feeds no window (R129). -/
theorem numberedPhase_none (at' : s.tsq.state = some h) (reads : h.reads = false) : s.numberedPhase = none := by
  unfold State.numberedPhase
  rw [at']
  cases s.tsq.phase with
  | none => rfl
  | some c => simp [reads]

theorem numberedPhase_some {c : TickCounter} (at' : s.tsq.state = some h) (runs : s.tsq.phase = some c)
    (reads : h.reads = true) (old : c.fresh = false) : s.numberedPhase = some h := by
  unfold State.numberedPhase
  rw [at', runs]
  simp [reads, old]

/-! ### What a condition raised there does (R145 to R149) -/

/-- A report of a hold check or of a window has no cause at the reading of a tick, so it is armed there (R145). -/
theorem SampleUsed.armed (used : SampleUsed p x s h slot u) {c : Cause}
    (report : c ∈ [.overpressure, .leakDrop, .overband, .unsettled, .creep, .tempRange]) : c ∉ u.ilk.disarmed := by
  intro out
  obtain ⟨-, present⟩ := used.disarmed c out
  unfold CausePresentAt at present
  cases c <;> simp at report present

/-- The current pressure is below vent_done (R148, R149). -/
theorem SampleUsed.vented (used : SampleUsed p x s h slot u) :
    u.vented = decide (convertPressure s.params x.press < s.params.ventDone) := by
  rw [State.vented, used.pressure, used.params]

/-- A VENT raised by a report of the window: the head enters SAFE, or with the pressure already down the response
completes at once (R149). -/
theorem SampleUsed.raise_vent {d : Docket} {z : TestPart} {k : Cause}
    (used : SampleUsed p x s h (some { d with test := some z }) u) (report : k ∈ [.unsettled, .creep, .tempRange])
    (active : k.activeIn h = true) (test : h.inTest = true) :
    let t := raise [k] u
    t.msu.window = {} ∧
    (s.params.ventDone ≤ convertPressure s.params x.press →
      t.tsq.state = some .safe ∧ t.tsq.safeFrom = some h ∧ t.ilk.inForce = some k ∧ t.ilk.timer.ticks = 0 ∧
      t.tsq.docket = some { d with test := some (appendedAt k h u z) }) ∧
    (convertPressure s.params x.press < s.params.ventDone →
      t.tsq.state = (if p.seat then some .draining else some .done) ∧ t.tsq.lidLock = p.seat ∧
      t.ilk.inForce = none ∧ t.ilk.latched = [] ∧
      t.tsq.docket = some { d with test := some (assembleVerdict s.params d (appendedAt k h u z)) }) := by
  have out : h ≠ .safe := by rintro rfl; exact absurd test (by decide)
  have vent : k.isTrip = false := by cases k <;> simp at report <;> decide
  have armed : u.condArmed k = true := by
    have mine := used.armed (c := k) (by cases k <;> simp at report ⊢)
    cases k <;> simp at report <;> simpa [State.condArmed] using mine
  obtain ⟨enters, completes⟩ := raise_one k h u used.state out used.free used.quiet
    (latches_outside k h u used.state out used.free used.quiet active armed)
  rw [used.vented] at enters completes
  by_cases down : convertPressure s.params x.press < s.params.ventDone
  · obtain ⟨free, quiet, docket, state, lid, window, -⟩ := completes vent (decide_eq_true down) test
    rw [used.docket] at docket
    rw [used.inputs] at state lid
    rw [used.params] at docket
    exact ⟨window, fun high => absurd down (Nat.not_lt.mpr high), fun _ => ⟨state, lid, free, quiet, docket⟩⟩
  · obtain ⟨state, -, -, taken, -, -, timer, -, inside, -⟩ := enters (.inr (decide_eq_false down))
    obtain ⟨safeFrom, docket, window, -⟩ := inside test
    rw [used.docket] at docket
    exact ⟨window, fun _ => ⟨state, safeFrom, taken, timer, docket⟩, fun low => absurd low down⟩

end

end Sys2Proof.Machine
end

section
/-! A sample in a window (R95, R98, R100, R129 to R133; log 9): when windows begin, what a sample adds, and the judgement of
the sixteenth. -/

namespace Sys2Proof.Machine

/-! ### One sample in a window (R130) -/

/-- A window with one more sample, after its first. -/
def Window.next (w : Window) (tStab level : Nat) (temp : Int) : Window :=
  { w with
    count := w.count + 1, levelSum := w.levelSum + level, tempSum := w.tempSum + temp
    crossings := if tStab < level - w.reference ∨ tStab < w.reference - level then w.crossings + 1 else w.crossings }

section
variable (w : Window) (tStab level : Nat) (temp : Int)

/-- The first sample of a window sets its reference. -/
theorem Window.add_first (first : w.count = 0) : w.add tStab level temp =
    { w with count := 1, reference := level, crossings := 0, levelSum := level, tempSum := temp } :=
  if_pos (beq_iff_eq.mpr first)

/-- A later sample adds to the sums, and to the crossings when it strays from the reference. -/
theorem Window.add_later (later : 0 < w.count) : w.add tStab level temp = w.next tStab level temp := by
  have strays : (decide (tStab < level - w.reference) || decide (tStab < w.reference - level)) =
      decide (tStab < level - w.reference ∨ tStab < w.reference - level) := (Bool.decide_or _ _).symm
  refine (if_neg (by simpa using Nat.ne_of_gt later)).trans ?_
  simp only [strays, decide_eq_true_eq]
  rfl

end

/-! ### The judgement of a full window (R130 to R132) -/

section
variable (h : HeadState) (w : Window) (s : State)

/-- A stable window with its mean temperature in range is a reading. -/
theorem judgeWindow_reading (stable : w.crossings ≤ 2) (low : 0 ≤ roundDiv w.tempSum 16)
    (high : roundDiv w.tempSum 16 ≤ 5000) :
    judgeWindow h w s = takeReading h w.levelSum (roundDiv w.tempSum 16).toNat s :=
  (if_pos stable).trans (if_pos (Bool.and_eq_true_iff.mpr ⟨decide_eq_true low, decide_eq_true high⟩))

/-- A stable window with its mean temperature out of range reports TEMP_RANGE. -/
theorem judgeWindow_tempRange (stable : w.crossings ≤ 2)
    (out : roundDiv w.tempSum 16 < 0 ∨ 5000 < roundDiv w.tempSum 16) :
    judgeWindow h w s = raise [.tempRange] (withWindow { w.emptied with shut := true } s) := by
  refine (if_pos stable).trans (if_neg fun inside => ?_)
  obtain ⟨low, high⟩ := Bool.and_eq_true_iff.mp inside
  exact out.elim (Int.not_lt.mpr (of_decide_eq_true low)) (Int.not_lt.mpr (of_decide_eq_true high))

/-- An unstable window within the budget is discarded and counted. -/
theorem judgeWindow_discarded (unstable : 3 ≤ w.crossings) (left : w.failures + 1 < windowBudget h) :
    judgeWindow h w s = withWindow { w.emptied with failures := w.failures + 1 } s :=
  (if_neg (by omega)).trans (if_neg (Nat.not_le.mpr left))

/-- The unstable window that spends the budget is reported. -/
theorem judgeWindow_spent (unstable : 3 ≤ w.crossings) (spent : windowBudget h ≤ w.failures + 1) :
    judgeWindow h w s =
      raise [budgetReport h] (withWindow { w.emptied with failures := w.failures + 1, shut := true } s) :=
  (if_neg (by omega)).trans (if_pos spent)

theorem windowBudget_eq : windowBudget h = if h = .holding then 4 else 8 := by
  simp only [windowBudget, beq_iff_eq]

theorem budgetReport_eq : budgetReport h = if h = .holding then .creep else .unsettled := by
  simp only [budgetReport, beq_iff_eq]

end

/-! ### The state that a sample reaches its window in -/

/-- A hold sample raises peak_pressure; a sample of another phase leaves it (R136). -/
def peakAt (h : HeadState) (q : Nat) (y : TestPart) : TestPart :=
  if h = .holding then { y with peak := max y.peak (min q 65535) } else y

/-- HOLDING left with a hold sample `q` in the hold sum (R8, R98, R136); another phase enters nothing. -/
def endedAt (h : HeadState) (q : Nat) (s : State) (z : TestPart) : TestPart :=
  if h = .holding then
    { z with
      holdEnd := some s.roundStamp
      holdMean := some (min 65535 (roundDivNat (s.msu.holdSum + q) (s.msu.holdCount + 1))) }
  else z

/-- Windows have begun: in HOLDING with the expiry of the hold timer (R129). -/
def WindowsBegun (h : HeadState) (c : TickCounter) (d : Docket) (s : State) : Prop :=
  h = .holding → s.msu.holdExpired = true ∨ ∃ n, d.holdTime = some n ∧ n * 20 ≤ min 65535 (c.ticks + 1)

/-- A sample of a reading phase that reports nothing, where its window takes it up: no channel is at a rail, the phase
timer counts the tick, and the window and the hold timer's expiry stand as before the sample. -/
structure WindowReached (p : Pins) (x : Sample) (s : State) (h : HeadState) (c : TickCounter) (d : Docket) (y : TestPart)
    (u : State) : Prop extends
    SampleUsed p x s h (some { d with test := some (peakAt h (convertPressure s.params x.press) y) }) u where
  inRange : otherRail x = false
  window : u.msu.window = s.msu.window
  phase : u.tsq.phase = some { ticks := min 65535 (c.ticks + 1), fresh := false }
  expired : u.msu.holdExpired = s.msu.holdExpired
  mean : h = .holding → holdMean u.msu =
    some (min 65535 (roundDivNat (s.msu.holdSum + convertPressure s.params x.press) (s.msu.holdCount + 1)))

section
variable {p : Pins} {x : Sample} {s u : State} {h : HeadState} {c : TickCounter} {d : Docket} {y : TestPart}

/-- A hold sample raises the peak and adds to the hold sum (R136). -/
theorem usePressure_holding {q : Nat} (owed : Bool) (at' : s.tsq.state = some .holding)
    (pressure : s.msu.pressure = some q) : usePressure owed s = addHold q (raisePeak q s) := by
  unfold usePressure
  rw [pressure, at']

theorem holdMean_addHold (q : Nat) (s : State) : holdMean (addHold q s).msu =
    some (min 65535 (roundDivNat (s.msu.holdSum + q) (s.msu.holdCount + 1))) :=
  if_neg (by simp [addHold])

/-- The phase timer counts the tick (R91). -/
theorem tickRead_phase (runs : s.tsq.phase = some c) (old : c.fresh = false) :
    (tickRead p x s).tsq.phase = some { ticks := min 65535 (c.ticks + 1), fresh := false } := by
  rw [(tickRead_parts p x s).1, runs]
  simp [TickCounter.advance, old]

section
variable (at' : s.tsq.state = some h) (runs : s.tsq.phase = some c) (old : c.fresh = false)
  (free : s.ilk.inForce = none) (quiet : s.ilk.latched = []) (slot : s.tsq.docket = some d) (test : d.test = some y)
  (range : atRail x.press = false) (inRange : otherRail x = false)
include at' runs old free quiet slot test range inRange

/-- In ZEROING and SETTLING the pressure is used for nothing (R97, R136). -/
theorem tickRead_reached (other : h ≠ .holding) : WindowReached p x s h c d y (tickRead p x s) := by
  have used := tickRead_used (p := p) (x := x) at' free quiet range
  have kept : s.tsq.docket = some { d with test := some (peakAt h (convertPressure s.params x.press) y) } := by
    rw [slot, peakAt, if_neg other, ← test]
  rw [kept] at used
  have msu := (tickRead_parts p x s).2
  exact { used with
    inRange
    window := by rw [msu]
    phase := tickRead_phase runs old
    expired := by rw [msu]
    mean := fun hold => absurd hold other }

/-- In HOLDING it raises the peak and is a hold sample (R136). -/
theorem addHold_reached (hold : h = .holding) : WindowReached p x s h c d y
    (addHold (convertPressure s.params x.press) (raisePeak (convertPressure s.params x.press) (tickRead p x s))) := by
  have used := ((tickRead_used (p := p) (x := x) at' free quiet range).onTest
    fun t => { t with peak := max t.peak (min (convertPressure s.params x.press) 65535) }).addHold
    (convertPressure s.params x.press)
  have raised : s.tsq.docket.map (Docket.onTest fun t =>
      { t with peak := max t.peak (min (convertPressure s.params x.press) 65535) }) =
      some { d with test := some (peakAt h (convertPressure s.params x.press) y) } := by
    rw [slot, peakAt, if_pos hold]
    simp [Docket.onTest, test]
  rw [raised] at used
  have msu := (tickRead_parts p x s).2
  have sums : (tickRead p x s).msu.holdSum = s.msu.holdSum ∧ (tickRead p x s).msu.holdCount = s.msu.holdCount := by
    rw [msu]
    exact ⟨rfl, rfl⟩
  exact { used with
    inRange
    window := (congrArg Msu.window msu :)
    phase := tickRead_phase runs old
    expired := (congrArg Msu.holdExpired msu :)
    mean := fun _ => by
      rw [holdMean_addHold, ← sums.1, ← sums.2]
      rfl }

/-- A sample of a reading phase that reports nothing is its window's (R129; log 9). -/
theorem headSample_reaches (reads : h.reads = true) (unowed : h ≠ .holding → s.tsq.peakOwed = false)
    (band : h = .holding → ∃ l, s.msu.limits = some l ∧ holdReports l (convertPressure s.params x.press) = []) :
    ∃ u, WindowReached p x s h c d y u ∧ headSample p x s = useWindow h x u := by
  have pressed := (tickRead_used (p := p) (x := x) at' free quiet range)
  have reached : ∃ u, WindowReached p x s h c d y u ∧ usePressure s.tsq.peakOwed (tickRead p x s) = u ∧
      sampleReports u = [] := by
    by_cases hold : h = .holding
    · have reached := addHold_reached (p := p) at' runs old free quiet slot test range inRange hold
      refine ⟨_, reached, usePressure_holding _ (hold ▸ pressed.state) pressed.pressure, ?_⟩
      obtain ⟨l, limits, none'⟩ := band hold
      subst hold
      rw [reached.reports_holding limits, inRange, none']
      rfl
    · have reached := tickRead_reached (p := p) at' runs old free quiet slot test range inRange hold
      refine ⟨_, reached, ?_, ?_⟩
      · refine usePressure_unused _ h _ pressed.state (.inr ⟨unowed hold, ?_, hold, ?_⟩)
        · rintro rfl; exact absurd reads (by decide)
        · rintro rfl; exact absurd reads (by decide)
      · rw [reached.reports_outside hold, inRange]
        rfl
  obtain ⟨u, reached, made, none'⟩ := reached
  refine ⟨u, reached, ?_⟩
  rw [reached.feeds made none', numberedPhase_some at' runs reads old]
  exact if_pos ((headIs_iff u h).mpr reached.state)

end

/-! ### What the window does with it -/

/-- Windows may begin, as the tick's count has it (R129). -/
theorem WindowReached.windowOpen_iff (reached : WindowReached p x s h c d y u) : u.windowOpen h = true ↔
    (h = .holding → s.msu.holdExpired = true ∨ d.holdTime.getD 0 * 20 ≤ min 65535 (c.ticks + 1)) := by
  unfold State.windowOpen
  rw [reached.phase, reached.expired, holdTime_slot u reached.docket]
  by_cases hold : h = .holding <;> simp [hold, ticks, Config.ticksPerSecond]

theorem WindowReached.opens (reached : WindowReached p x s h c d y u) (begun : WindowsBegun h c d s) :
    u.windowOpen h = true :=
  reached.windowOpen_iff.mpr fun hold => (begun hold).imp_right fun ⟨n, length, due⟩ => by rwa [length]

theorem WindowReached.waits (reached : WindowReached p x s h c d y u) (early : ¬ WindowsBegun h c d s)
    (timed : d.holdTime.isSome = true) : u.windowOpen h = false := by
  obtain ⟨n, length⟩ := Option.isSome_iff_exists.mp timed
  refine Bool.eq_false_iff.mpr fun opened => early fun hold => ?_
  refine (reached.windowOpen_iff.mp opened hold).imp_right fun due => ⟨n, length, ?_⟩
  rwa [length] at due

/-- A sample of the settle skip (R129). -/
theorem WindowReached.skips (reached : WindowReached p x s h c d y u) (skip : 0 < s.msu.window.skip) :
    useWindow h x u = withWindow { s.msu.window with skip := s.msu.window.skip - 1 } u := by
  rw [← reached.window] at skip ⊢
  exact if_pos skip

/-- Ahead of the hold timer's expiry no window begins (R129). -/
theorem WindowReached.holdsOff (reached : WindowReached p x s h c d y u) (skipped : s.msu.window.skip = 0)
    (shut : u.windowOpen h = false) : useWindow h x u = u := by
  rw [← reached.window] at skipped
  exact (if_neg (by simp [skipped])).trans (if_pos (by simp [shut]))

section
variable (reached : WindowReached p x s h c d y u) (skipped : s.msu.window.skip = 0) (begun : WindowsBegun h c d s)
  (unshut : s.msu.window.shut = false)
include reached skipped begun unshut

/-- Past the settle skip, with windows begun, the sample is added; the sixteenth is judged (R130). -/
theorem WindowReached.adds {w : Window}
    (added : s.msu.window.add s.params.tStab x.level.toNat (convertTemp s.params x.temp) = w) :
    useWindow h x u = if w.count = 16 then judgeWindow h w u else withWindow w u := by
  obtain ⟨level, temp⟩ := Bool.or_eq_false_iff.mp reached.inRange
  have opened := reached.opens begun
  rw [← reached.window, ← reached.params] at added
  rw [← reached.window] at skipped unshut
  unfold useWindow
  dsimp only
  rw [added, if_neg (by simp [skipped]), if_neg (by simp [unshut, opened]),
    if_neg (by simp [reached.level, reached.temp, level, temp])]
  exact ite_congr (propext beq_iff_eq) (fun _ => rfl) fun _ => rfl

/-- The first sample of a window. -/
theorem WindowReached.begins (first : s.msu.window.count = 0) : useWindow h x u = withWindow { s.msu.window with
      count := 1, reference := x.level.toNat, crossings := 0, levelSum := x.level.toNat
      tempSum := convertTemp s.params x.temp } u :=
  (reached.adds skipped begun unshut (Window.add_first _ _ _ _ first)).trans (if_neg (by simp))

/-- A later sample, ahead of the sixteenth. -/
theorem WindowReached.goesOn (later : 0 < s.msu.window.count) (early : s.msu.window.count < 15) : useWindow h x u =
    withWindow (s.msu.window.next s.params.tStab x.level.toNat (convertTemp s.params x.temp)) u :=
  (reached.adds skipped begun unshut (Window.add_later _ _ _ _ later)).trans
    (if_neg (by simp only [Window.next]; omega))

/-- The sixteenth. -/
theorem WindowReached.judges (full : s.msu.window.count = 15) : useWindow h x u =
    judgeWindow h (s.msu.window.next s.params.tStab x.level.toNat (convertTemp s.params x.temp)) u :=
  (reached.adds skipped begun unshut (Window.add_later _ _ _ _ (by omega))).trans (if_pos (by simp [Window.next, full]))

end

/-- The window changes and the head goes on in its phase. -/
theorem WindowReached.stays (reached : WindowReached p x s h c d y u) (w : Window) :
    (withWindow w u).tsq.state = some h ∧ (withWindow w u).msu.window = w ∧
    (withWindow w u).tsq.docket = some { d with test := some (peakAt h (convertPressure s.params x.press) y) } :=
  ⟨reached.state, rfl, reached.docket⟩

/-- A condition appended in the phase, with the figures of HOLDING (R9, R98, R106, R136). -/
theorem WindowReached.appendedAt_eq (reached : WindowReached p x s h c d y u) (k : Cause) (w : Window) (z : TestPart) :
    appendedAt k h (withWindow w u) z = endedAt h (convertPressure s.params x.press) s (z.append k) := by
  unfold appendedAt endedAt
  by_cases hold : h = .holding
  · rw [if_pos hold, if_pos hold, ← reached.mean hold, ← reached.stamp]
    rfl
  · rw [if_neg hold, if_neg hold]

/-- A window's report, a VENT (R131, R132, R149). -/
theorem WindowReached.vents (reached : WindowReached p x s h c d y u) {k : Cause} (w : Window)
    (report : k ∈ [.unsettled, .creep, .tempRange]) (active : k.activeIn h = true) (test : h.inTest = true) :
    let q := convertPressure s.params x.press
    let z := endedAt h q s ((peakAt h q y).append k)
    let t := raise [k] (withWindow w u)
    t.msu.window = {} ∧
    (s.params.ventDone ≤ q →
      t.tsq.state = some .safe ∧ t.tsq.safeFrom = some h ∧ t.ilk.inForce = some k ∧ t.ilk.timer.ticks = 0 ∧
      t.tsq.docket = some { d with test := some z }) ∧
    (q < s.params.ventDone →
      t.tsq.state = (if p.seat then some .draining else some .done) ∧ t.tsq.lidLock = p.seat ∧
      t.ilk.inForce = none ∧ t.ilk.latched = [] ∧
      t.tsq.docket = some { d with test := some (assembleVerdict s.params d z) }) := by
  have raised := (reached.toSampleUsed.withWindow w).raise_vent report active test
  rw [reached.appendedAt_eq] at raised
  exact raised

/-! ### The readings (R95, R98, R100) -/

section
variable {z : TestPart} {slot : Option Docket} (sum t : Nat)

theorem SampleUsed.newCounter (used : SampleUsed p x s h slot u) : u.newCounter = { ticks := 0, fresh := false } := by
  rw [State.newCounter, used.closed]

/-- The zero reading takes the head to WAIT_RAMP (R95, R96). -/
theorem SampleUsed.zeroReading (used : SampleUsed p x s h (some { d with test := some z }) u) :
    let v := zeroReading sum t u
    v.tsq.state = some .waitRamp ∧ v.tsq.phase = some { ticks := 0, fresh := false } ∧ v.adm.waitAge = 0 ∧
    v.adm.urgent = false ∧ v.tsq.docket =
      some { d with test := some { z with s0 := some sum, t0 := some t, zeroStamp := some s.roundStamp } } := by
  refine ⟨rfl, congrArg some used.newCounter, rfl, rfl, ?_⟩
  rw [← used.stamp]
  exact congrArg (Option.map _) used.docket

/-- The total reading takes the head to VENTING, its hold entered (R98, R136). -/
theorem WindowReached.totalReading (reached : WindowReached p x s .holding c d y u) :
    let q := convertPressure s.params x.press
    let total := { peakAt .holding q y with st := some sum, tt := some t }
    let v := totalReading sum t u
    v.tsq.state = some .venting ∧ v.tsq.phase = some { ticks := 0, fresh := false } ∧
    v.tsq.docket = some { d with test := some (endedAt .holding q s total) } := by
  refine ⟨rfl, congrArg some reached.newCounter, ?_⟩
  show Option.map _ (Option.map _ u.tsq.docket) = _
  rw [endedAt, if_pos rfl, ← reached.stamp, ← reached.mean rfl, reached.docket]
  rfl

/-- The permanent reading takes the head to DRAINING, its verdict assembled (R100). -/
theorem SampleUsed.permanentReading (used : SampleUsed p x s h (some { d with test := some z }) u) :
    let v := permanentReading sum t u
    v.tsq.state = some .draining ∧ v.tsq.lidLock = true ∧ v.tsq.docket =
      some { d with test := some (assembleVerdict s.params d { z with sp := some sum, tp := some t }) } := by
  refine ⟨rfl, rfl, ?_⟩
  show Option.map _ (Option.map _ u.tsq.docket) = _
  rw [← used.params, used.docket]
  rfl

end

end

/-- A code in range is at no rail (R125). -/
theorem atRail_inRange {code : BitVec 16} (low : 16 ≤ code.toNat) (high : code.toNat < 65520) : atRail code = false := by
  rw [Bool.eq_false_iff, ne_eq, atRail_iff]
  omega

/-- Settles O48: the sample reaches its window with nothing to report; there it is skipped, put off or added, and the
sixteenth is judged. -/
theorem windowsGiveReadings : Obligations.WindowsGiveReadings := by
  intro p x h c d y s
  dsimp only
  intro role at' phases band runs old free quiet slot test unowed unshut level level' press press' temp temp'
  have reads : h.reads = true := by rcases phases with rfl | rfl | rfl <;> rfl
  have inTest : h.inTest = true := by rcases phases with rfl | rfl | rfl <;> rfl
  have tempRange : Cause.tempRange.activeIn h = true := by rcases phases with rfl | rfl | rfl <;> rfl
  have inRange : otherRail x = false := by
    rw [otherRail, atRail_inRange level level', atRail_inRange temp temp']
    rfl
  obtain ⟨u, reached, does⟩ := headSample_reaches (p := p) at' runs old free quiet slot test
    (atRail_inRange press press') inRange reads (fun _ => unowed) fun hold => by
      obtain ⟨l, limits, low, top, cond⟩ := band hold
      exact ⟨l, limits, holdReports_none cond top low⟩
  have run := (exec_sampleTick p x s role).trans (congrArg Host.Outcome.next does)
  refine ⟨fun skip => ?_, fun early skipped timed => ?_, fun begun skipped first => ?_,
    fun begun skipped later early => ?_, fun begun skipped full unstable left => ?_,
    fun begun skipped full unstable spent => ?_, fun begun skipped full stable out => ?_,
    fun zeroing skipped full stable low high => ?_, fun holding begun skipped full stable low high => ?_,
    fun settling skipped full stable low high => ?_⟩
  · exact ⟨_, run.trans (congrArg _ (reached.skips skip)), reached.stays _⟩
  · have off := reached.holdsOff skipped (reached.waits early timed)
    exact ⟨_, run.trans (congrArg _ off), reached.state, reached.window, reached.docket⟩
  · exact ⟨_, run.trans (congrArg _ (reached.begins skipped begun unshut first)), reached.stays _⟩
  · exact ⟨_, run.trans (congrArg _ (reached.goesOn skipped begun unshut later early)), reached.stays _⟩
  · have judged := (reached.judges skipped begun unshut full).trans
      (judgeWindow_discarded h _ u unstable (by rw [windowBudget_eq]; exact left))
    exact ⟨_, run.trans (congrArg _ judged), reached.stays _⟩
  · have judged := (reached.judges skipped begun unshut full).trans
      (judgeWindow_spent h _ u unstable (by rw [windowBudget_eq]; exact spent))
    rw [budgetReport_eq] at judged
    refine ⟨_, run.trans (congrArg _ judged), reached.vents _ ?_ ?_ inTest⟩
    · split <;> simp
    · rcases phases with rfl | rfl | rfl <;> rfl
  · have judged := (reached.judges skipped begun unshut full).trans (judgeWindow_tempRange h _ u stable out)
    exact ⟨_, run.trans (congrArg _ judged), reached.vents _ (by simp) tempRange inTest⟩
  · subst zeroing
    have judged := (reached.judges skipped (fun hold => nomatch hold) unshut full).trans
      (judgeWindow_reading .zeroing _ u stable low high)
    exact ⟨_, run.trans (congrArg _ judged), reached.toSampleUsed.zeroReading _ _⟩
  · subst holding
    have judged := (reached.judges skipped begun unshut full).trans
      (judgeWindow_reading .holding _ u stable low high)
    exact ⟨_, run.trans (congrArg _ judged), reached.totalReading _ _⟩
  · subst settling
    have judged := (reached.judges skipped (fun hold => nomatch hold) unshut full).trans
      (judgeWindow_reading .settling _ u stable low high)
    exact ⟨_, run.trans (congrArg _ judged), reached.toSampleUsed.permanentReading _ _⟩

end Sys2Proof.Machine
end

section
/-! An event that takes the head out of the ramp or the hold ahead of its tick's sample, and the sample that is owed to the
peak then (R97, R136; log 10). -/

namespace Sys2Proof.Machine

/-! ### The event (log 10) -/

/-- A head in the ramp or the hold, with the tick opened by an event ahead of its sample and no response in force. -/
def InOpenRamp (s : State) : Prop :=
  (s.tsq.state = some .ramping ∨ s.tsq.state = some .holding) ∧ s.tsq.tickOpen = true ∧ s.ilk.inForce = none

/-- A head that has left its state owes the tick's sample to the peak, and it left by SAFE. -/
def LeftOwing (s t : State) : Prop :=
  t.tsq.state ≠ s.tsq.state → t.tsq.peakOwed = true ∧ t.tsq.state ∈ [some .safe, some .draining, some .done]

section
variable {s : State}

theorem LeftOwing.refl (s : State) : LeftOwing s s := fun moved => absurd rfl moved

theorem LeftOwing.of_state {z t : State} (left : LeftOwing z t) (same : z.tsq.state = s.tsq.state) : LeftOwing s t := by
  unfold LeftOwing at left ⊢
  rwa [same] at left

/-- The response to a test's SAFE leaves what is owed to the peak (R107, R147). -/
theorem chooseNext_keepsOwed {h : HeadState} (safe : s.tsq.state = some .safe) (origin : s.tsq.safeFrom = some h) :
    (chooseNext s).tsq.peakOwed = s.tsq.peakOwed ∧
    (chooseNext s).tsq.state ∈ [some .safe, some .draining, some .done] := by
  have left (i : Ilk) : (leaveSafe (s.withIlk i)).tsq.peakOwed = s.tsq.peakOwed ∧
      (leaveSafe (s.withIlk i)).tsq.state ∈ [some .safe, some .draining, some .done] := by
    unfold leaveSafe
    rw [State.withIlk_tsq, origin]
    dsimp only
    split
    · exact ⟨rfl, by simp [enterDraining, enterLocked, enterPhase]⟩
    · exact ⟨rfl, by simp [enterDone, enterPhase]⟩
  unfold chooseNext
  split
  · exact left _
  · split
    · exact ⟨rfl, by simp [safe]⟩
    · exact left _

/-- SAFE entered from the ramp or the hold in an open tick owes its sample to the peak (R136, R154). -/
theorem enterSafe_owes {h : HeadState} (at' : s.tsq.state = some h) (ramp : h = .ramping ∨ h = .holding)
    (opened : s.tsq.tickOpen = true) : (enterSafe s).tsq.peakOwed = true := by
  unfold enterSafe
  rw [at']
  rcases ramp with rfl | rfl <;>
    simp [HeadState.inTest, HeadState.code, abandonPhase, leaveHolding, onTest, opened]

theorem respond_leavesOwing (ramp : InOpenRamp s) : LeftOwing s (respond s) := by
  obtain ⟨state, opened, free⟩ := ramp
  intro moved
  obtain ⟨h, at', ramps⟩ : ∃ h, s.tsq.state = some h ∧ (h = .ramping ∨ h = .holding) := by
    rcases state with at' | at'
    · exact ⟨_, at', .inl rfl⟩
    · exact ⟨_, at', .inr rfl⟩
  cases top : s.topLatched with
  | none => exact absurd (by rw [respond, top]) moved
  | some c =>
    have taken : respond s = chooseNext (enterSafe s) := by rw [respond, top, free]
    obtain ⟨safe, -, -, origin, -⟩ := enterSafe_test h s at' (by rcases ramps with rfl | rfl <;> decide)
    obtain ⟨owed, goes⟩ := chooseNext_keepsOwed safe origin
    rw [taken]
    exact ⟨owed.trans (enterSafe_owes at' ramps opened), goes⟩

/-- Latching leaves the head where it stands. -/
theorem latchOne_stays (c : Cause) (s : State) : (latchOne c s).tsq.state = s.tsq.state ∧
    (latchOne c s).tsq.tickOpen = s.tsq.tickOpen ∧ (latchOne c s).ilk.inForce = s.ilk.inForce := by
  cases takes : s.latches c with
  | false => simp [latchOne_not c s takes]
  | true => simp [latchOne_taken c s takes]

theorem latchOne_inOpenRamp (c : Cause) (ramp : InOpenRamp s) : InOpenRamp (latchOne c s) := by
  obtain ⟨state, opened, free⟩ := latchOne_stays c s
  rwa [InOpenRamp, state, opened, free]

theorem raise_leavesOwing (c : Cause) (ramp : InOpenRamp s) : LeftOwing s (raise [c] s) := by
  obtain ⟨state, -⟩ := latchOne_stays c s
  exact (respond_leavesOwing (latchOne_inOpenRamp c ramp)).of_state state

/-- An edge that disarms its input. -/
theorem edge_leavesOwing (c : Cause) (a b : Bool) (ramp : InOpenRamp s) :
    LeftOwing s (respond ((latchOne c s).withIlk { (latchOne c s).ilk with pswArmed := a, abortArmed := b })) := by
  obtain ⟨state, -⟩ := latchOne_stays c s
  have kept : InOpenRamp ((latchOne c s).withIlk { (latchOne c s).ilk with pswArmed := a, abortArmed := b }) :=
    latchOne_inOpenRamp c ramp
  exact (respond_leavesOwing kept).of_state state

/-- Every event ahead of its tick's sample that takes the head out of the ramp or the hold owes it that sample. -/
theorem event_leavesOwing (p : Pins) (x : Sample) (i : Instr) (role : s.role = some .test)
    (state : s.tsq.state = some .ramping ∨ s.tsq.state = some .holding) (free : s.ilk.inForce = none)
    (event : i ∈ [.estop (.beforeSample p x), .psw (.beforeSample p x), .lidOpen (.beforeSample p x),
      .abort (.beforeSample p x), .rampTimeout (.beforeSample p x), .silenceExpiry (.beforeSample p x)]) :
    ∃ t, exec i s = .next t ∧ LeftOwing s t := by
  have opened (f : Pins → Pins) : InOpenRamp (withInput f (openTick (.beforeSample p x) s)) := ⟨state, rfl, free⟩
  simp only [List.mem_cons, List.not_mem_nil, or_false] at event
  rcases event with rfl | rfl | rfl | rfl | rfl | rfl
  · exact ⟨_, next_atHead role rfl, (raise_leavesOwing _ (opened _)).of_state rfl⟩
  · refine ⟨_, next_atHead role rfl, ?_⟩
    unfold pswEdge
    split
    · exact (edge_leavesOwing _ _ _ (opened _)).of_state rfl
    · exact .refl s
  · exact ⟨_, next_atHead role rfl, (raise_leavesOwing _ (opened _)).of_state rfl⟩
  · refine ⟨_, next_atHead role rfl, ?_⟩
    unfold abortEdge
    split
    · exact (edge_leavesOwing _ _ _ (opened _)).of_state rfl
    · exact .refl s
  · have marked : InOpenRamp ((openTick (.beforeSample p x) s).withIlk
        { (openTick (.beforeSample p x) s).ilk with expired := some .rampTimeout }) := ⟨state, rfl, free⟩
    refine ⟨_, next_atHead role rfl, ?_⟩
    unfold rampExpiry
    split
    · exact (raise_leavesOwing _ marked).of_state rfl
    · exact .refl s
  · have silent (l : Lif) : InOpenRamp (openTick (.beforeSample p x) (s.withLif l)) := ⟨state, rfl, free⟩
    show ∃ t, execSilenceExpiry (.beforeSample p x) s = .next t ∧ _
    unfold execSilenceExpiry
    split
    · refine ⟨_, rfl, ?_⟩
      unfold silenceExpiry
      dsimp only
      split
      · exact (raise_leavesOwing _ (silent _)).of_state rfl
      · exact LeftOwing.of_state (.refl _) rfl
    · exact ⟨_, rfl, .refl s⟩

end

/-! ### The sample that is owed (R136; log 10) -/

section
variable {p : Pins} {x : Sample} {s : State} {d : Docket} {y : TestPart}

/-- A state with no sample owed to the peak. -/
def unowed (s : State) : State := s.withTsq { s.tsq with peakOwed := false }

theorem raisePeak_slot (q : Nat) (slot : s.tsq.docket = some d) (test : d.test = some y) : raisePeak q s =
    s.withTsq { s.tsq with docket := some { d with test := some { y with peak := max y.peak (min q 65535) } } } := by
  simp [raisePeak, onTest, slot, Docket.onTest, test]

theorem raisePeak_unowed (q : Nat) (slot : s.tsq.docket = some d) (test : d.test = some y) : raisePeak q (unowed s) =
    { s with tsq := { s.tsq with
      peakOwed := false, docket := some { d with test := some { y with peak := max y.peak (min q 65535) } } } } :=
  raisePeak_slot (s := unowed s) q slot test

section
variable (left : s.tsq.state ∉ [some .ramping, some .holding, some .venting])
include left

/-- Out of the ramp, the hold and the vent, with nothing owed, a pressure is of no use. -/
theorem usePressure_left_unowed : usePressure false s = s := by
  rw [usePressure_left false s left]
  cases s.msu.pressure <;> rfl

theorem tickRead_left (p : Pins) (x : Sample) :
    (tickRead p x s).tsq.state ∉ [some .ramping, some .holding, some .venting] := by
  rw [(tickRead_parts p x s).1]
  exact left

theorem headSample_unowed_state (p : Pins) (x : Sample) (q : Nat) :
    headSample p x (raisePeak q (unowed s)) = windowStage s.numberedPhase x
      (raise (sampleReports (raisePeak q (tickRead p x s))) (raisePeak q (tickRead p x s))) := by
  refine headSample_stages p x (raisePeak q (unowed s)) _ ?_
  rw [tickRead_raisePeak, unowed, tickRead_unowed]
  exact usePressure_left_unowed (tickRead_left left p x)

section
variable (owed : s.tsq.peakOwed = true)
include owed

theorem usePressure_owed (range : atRail x.press = false) : usePressure s.tsq.peakOwed (tickRead p x s) =
    raisePeak (convertPressure s.params x.press) (tickRead p x s) := by
  rw [owed, usePressure_left true _ (tickRead_left left p x), (tickRead_parts p x s).2]
  simp only [range, Bool.false_eq_true, if_false, if_true]

/-- A sample owed to the peak raises it, and else is one of the state that the head is in (R136; log 10). -/
theorem headSample_owed (range : atRail x.press = false) :
    headSample p x s = headSample p x (raisePeak (convertPressure s.params x.press) (unowed s)) := by
  rw [headSample_unowed_state left]
  exact headSample_stages p x s _ (usePressure_owed left owed range)

/-- At a pressure rail it does not even that. -/
theorem headSample_owed_rail (rail : atRail x.press = true) : headSample p x s = headSample p x (unowed s) := by
  have same : usePressure s.tsq.peakOwed (tickRead p x s) = tickRead p x s := by
    rw [owed, usePressure_left true _ (tickRead_left left p x), (tickRead_parts p x s).2]
    simp only [rail, if_true]
  have other : usePressure (unowed s).tsq.peakOwed (tickRead p x (unowed s)) = tickRead p x s := by
    rw [unowed, tickRead_unowed]
    exact usePressure_left_unowed (tickRead_left left p x)
  rw [headSample_stages p x s _ same, headSample_stages p x (unowed s) _ other]
  rfl

end

end

theorem tickRead_adm (p : Pins) (x : Sample) (s : State) : (tickRead p x s).adm = s.adm := by
  unfold tickRead advanceTimers
  cases h : s.ilk.inForce <;> simp [h, rearm, readChannels, senseInputs]

theorem raisePeak_tickRead_tsq (q : Nat) (slot : s.tsq.docket = some d) (test : d.test = some y) :
    (raisePeak q (tickRead p x s)).tsq = { s.tsq with
      phase := s.tsq.phase.map TickCounter.advance, tickOpen := false, peakOwed := false
      docket := some { d with test := some { y with peak := max y.peak (min q 65535) } } } := by
  have tsq := (tickRead_parts p x s).1
  rw [raisePeak_slot q (by rw [tsq]; exact slot) test, State.withTsq_tsq, tsq]

/-- In SAFE, DRAINING and DONE, with no rail and nothing latched above the response in force, a sample ends with the
peak that it was owed to (R125, R133, R150). -/
theorem headSample_rests (owed : s.tsq.peakOwed = true)
    (rests : s.tsq.state ∈ [some .safe, some .draining, some .done]) (agrees : SafeMatchesResponse s)
    (level : atRail x.level = false) (press : atRail x.press = false) (temp : atRail x.temp = false) :
    headSample p x s = raisePeak (convertPressure s.params x.press) (tickRead p x s) := by
  obtain ⟨h, at', left, hold, reads⟩ : ∃ h, s.tsq.state = some h ∧
      s.tsq.state ∉ [some .ramping, some .holding, some .venting] ∧ h ≠ .holding ∧ h.reads = false := by
    simp only [List.mem_cons, List.not_mem_nil, or_false] at rests
    rcases rests with at' | at' | at' <;> exact ⟨_, at', by simp [at'], by decide, by decide⟩
  have made := usePressure_owed (p := p) left owed press
  obtain ⟨tsq, msu⟩ := tickRead_parts p x s
  generalize convertPressure s.params x.press = q at made ⊢
  have state : (raisePeak q (tickRead p x s)).tsq.state = some h := (congrArg Tsq.state tsq :).trans at'
  have norail : (raisePeak q (tickRead p x s)).anyRail = false := by
    show (tickRead p x s).anyRail = false
    rw [State.anyRail, msu]
    simp only [level, press, temp, Bool.or_false]
  have quiet : sampleReports (raisePeak q (tickRead p x s)) = [] := by
    rw [sampleReports_quiet _ (.inl (by simp [State.headIs, state, hold])), norail]
    rfl
  rw [headSample_stages p x s _ made, quiet, numberedPhase_none at' reads]
  refine respond_stays _ ?_
  show ∀ c ∈ (tickRead p x s).ilk.latched, ∃ f, (tickRead p x s).ilk.inForce = some f ∧ f.code ≤ c.code
  obtain ⟨-, top, -⟩ := agrees
  rw [tickRead_ilk]
  exact top

end

end Sys2Proof.Machine
end

section
/-! What a sample does in the ramp, the hold and the vent (R97 to R99, R134 to R137, R149, R154; log 9): the use of its
pressure, its reports, and the condition that is taken. -/

namespace Sys2Proof.Machine

section
variable {p : Pins} {x : Sample} {s u : State} {h : HeadState} {d : Docket} {y z : TestPart} {l : Limits} {q : Nat}

/-- The level or the temperature is at a rail when it is out of range (R125). -/
theorem otherRail_iff (x : Sample) :
    ¬ (16 ≤ x.level.toNat ∧ x.level.toNat < 65520 ∧ 16 ≤ x.temp.toNat ∧ x.temp.toNat < 65520) ↔
      otherRail x = true := by
  rw [otherRail, Bool.or_eq_true, atRail_iff, atRail_iff]
  omega

/-! ### The use of the pressure (R97, R99, R135 to R137) -/

/-- Under test pressure the ramp goes on, its peak raised. -/
theorem usePressure_ramp (owed : Bool) (at' : s.tsq.state = some .ramping) (pressure : s.msu.pressure = some q)
    (under : q < s.testPressure) : usePressure owed s = raisePeak q s := by
  unfold usePressure
  rw [pressure, at']
  exact if_neg (Nat.not_le.mpr under)

/-- At test pressure the head enters HOLDING. -/
theorem usePressure_reached (owed : Bool) (at' : s.tsq.state = some .ramping) (pressure : s.msu.pressure = some q)
    (reached : s.testPressure ≤ q) : usePressure owed s = enterHolding q (raisePeak q s) := by
  unfold usePressure
  rw [pressure, at']
  exact if_pos reached

/-- Under vent_done the head enters SETTLING. -/
theorem usePressure_vent (owed : Bool) (at' : s.tsq.state = some .venting) (pressure : s.msu.pressure = some q) :
    usePressure owed s = if q < s.params.ventDone then enterReading .settling s else s := by
  unfold usePressure
  rw [pressure, at']

/-- The docket's test part with the peak of a pressure. -/
def peaked (q : Nat) (y : TestPart) : TestPart := { y with peak := max y.peak (min q 65535) }

/-- The test part after a hold sample `q`, the first one, which enters the hold start stamp, included (R97, R136). -/
def heldPart (h : HeadState) (q : Nat) (s : State) (y : TestPart) : TestPart :=
  if h = .ramping then { peaked q y with holdStart := some s.roundStamp } else peaked q y

def holdSumAt (h : HeadState) (q : Nat) (s : State) : Nat := if h = .ramping then q else s.msu.holdSum + q

def holdCountAt (h : HeadState) (s : State) : Nat := if h = .ramping then 1 else s.msu.holdCount + 1

/-- The head stands in HOLDING with a hold sample used, the first included (R136). -/
structure HoldSampled (p : Pins) (x : Sample) (s : State) (h : HeadState) (d : Docket) (y : TestPart) (u : State) : Prop
    extends SampleUsed p x s .holding
      (some { d with test := some (heldPart h (convertPressure s.params x.press) s y) }) u where
  made : usePressure s.tsq.peakOwed (tickRead p x s) = u
  sum : u.msu.holdSum = holdSumAt h (convertPressure s.params x.press) s
  count : u.msu.holdCount = holdCountAt h s

theorem tickRead_testPressure (slot : s.tsq.docket = some d) : (tickRead p x s).testPressure = d.testPressure :=
  testPressure_docket _ (by rw [(tickRead_parts p x s).1]; exact slot)

section
variable (at' : s.tsq.state = some h) (free : s.ilk.inForce = none) (quiet : s.ilk.latched = [])
  (slot : s.tsq.docket = some d) (test : d.test = some y) (range : atRail x.press = false)
include at' free quiet slot test range

/-- The peak raised by the sample as read. -/
theorem raisePeak_used : SampleUsed p x s h
    (some { d with test := some (peaked (convertPressure s.params x.press) y) })
    (raisePeak (convertPressure s.params x.press) (tickRead p x s)) := by
  have used := (tickRead_used (p := p) at' free quiet range).onTest (peaked (convertPressure s.params x.press))
  have raised : s.tsq.docket.map (Docket.onTest (peaked (convertPressure s.params x.press))) =
      some { d with test := some (peaked (convertPressure s.params x.press) y) } := by
    rw [slot, Option.map_some, Docket.onTest, test, Option.map_some]
  rw [raised] at used
  exact used

/-- At test pressure the sample is the first hold sample (R97). -/
theorem enterHolding_sampled (ramp : h = .ramping) (reached : d.testPressure ≤ convertPressure s.params x.press) :
    HoldSampled p x s h d y
      (enterHolding (convertPressure s.params x.press)
        (raisePeak (convertPressure s.params x.press) (tickRead p x s))) := by
  have read := tickRead_used (p := p) at' free quiet range
  have used := (raisePeak_used (p := p) at' free quiet slot test range).enterHolding (convertPressure s.params x.press)
  have target := tickRead_testPressure (p := p) (x := x) slot
  subst ramp
  exact { used with
    made := usePressure_reached _ read.state read.pressure (target.trans_le reached)
    sum := rfl
    count := rfl }

/-- In HOLDING it is one more (R136). -/
theorem addHold_sampled (hold : h = .holding) : HoldSampled p x s h d y
    (addHold (convertPressure s.params x.press) (raisePeak (convertPressure s.params x.press) (tickRead p x s))) := by
  have read := tickRead_used (p := p) at' free quiet range
  have used := (raisePeak_used (p := p) at' free quiet slot test range).addHold (convertPressure s.params x.press)
  have msu := (tickRead_parts p x s).2
  subst hold
  exact { used with
    made := usePressure_holding _ read.state read.pressure
    sum := (congrArg (fun m : Msu => m.holdSum + convertPressure s.params x.press) msu :)
    count := (congrArg (fun m : Msu => m.holdCount + 1) msu :) }

theorem holdSample_used
    (hold : h = .holding ∨ (h = .ramping ∧ d.testPressure ≤ convertPressure s.params x.press)) :
    ∃ u, HoldSampled p x s h d y u := by
  rcases hold with hold | ⟨ramp, reached⟩
  · exact ⟨_, addHold_sampled at' free quiet slot test range hold⟩
  · exact ⟨_, enterHolding_sampled at' free quiet slot test range ramp reached⟩

end

theorem HoldSampled.mean (held : HoldSampled p x s h d y u) : holdMean u.msu =
    some (min 65535 (roundDivNat (holdSumAt h (convertPressure s.params x.press) s) (holdCountAt h s))) := by
  have some' : holdCountAt h s ≠ 0 := by
    unfold holdCountAt
    split <;> simp
  rw [holdMean, held.sum, held.count]
  exact if_neg (by simpa using some')

/-! ### The reports of a hold sample (R125, R135) -/

/-- The reports of a hold sample, in their order: SENSOR_RANGE, OVERPRESSURE, OVERBAND, LEAK_DROP. -/
def holdSampleReports (x : Sample) (l : Limits) (q : Nat) : List Cause :=
  (if otherRail x then [.sensorRange] else []) ++ holdReports l q

/-- Something is reported. -/
def Reports (x : Sample) (l : Limits) (q : Nat) : Prop := otherRail x = true ∨ l.cond ≤ q ∨ l.top < q ∨ q < l.low

theorem mem_holdSampleReports (c : Cause) : c ∈ holdSampleReports x l q ↔
    (c = .sensorRange ∧ otherRail x = true) ∨ (c = .overpressure ∧ l.cond ≤ q) ∨ (c = .overband ∧ l.top < q) ∨
    (c = .leakDrop ∧ q < l.low) := by
  have mem_ite (e : Cause) (P : Prop) [Decidable P] : c ∈ (if P then [e] else []) ↔ c = e ∧ P := by
    split <;> simp [*]
  simp only [holdSampleReports, holdReports, List.mem_append, mem_ite, or_assoc]

theorem holdSampleReports_nodup : (holdSampleReports x l q).Nodup := by
  have sub (e : Cause) (P : Prop) [Decidable P] : (if P then [e] else []).Sublist [e] := by
    split <;> simp
  exact ((sub .sensorRange _).append (((sub .overpressure _).append (sub .overband _)).append (sub .leakDrop _))).nodup
    (by decide)

theorem holdSampleReports_none (none' : ¬ Reports x l q) : holdSampleReports x l q = [] := by
  unfold Reports at none'
  refine List.eq_nil_iff_forall_not_mem.mpr fun c report => none' ?_
  rcases (mem_holdSampleReports c).mp report with ⟨-, r⟩ | ⟨-, r⟩ | ⟨-, r⟩ | ⟨-, r⟩
  · exact .inl r
  · exact .inr (.inl r)
  · exact .inr (.inr (.inl r))
  · exact .inr (.inr (.inr r))

/-- The conditions listed in their order (R9, R135). -/
theorem foldl_holdSampleReports {railed : Prop} [Decidable railed] (rail : railed ↔ otherRail x = true)
    (z : TestPart) : (holdSampleReports x l q).foldl TestPart.append z =
      let z0 := if railed then z.append .sensorRange else z
      let z1 := if l.cond ≤ q then z0.append .overpressure else z0
      let z2 := if l.top < q then z1.append .overband else z1
      if q < l.low then z2.append .leakDrop else z2 := by
  have fold_ite (e : Cause) (P : Prop) [Decidable P] (w : TestPart) :
      (if P then [e] else []).foldl TestPart.append w = if P then w.append e else w := by
    split <;> rfl
  simp only [holdSampleReports, holdReports, List.foldl_append, fold_ite, rail]

/-- The report of highest priority (R147). -/
def firstReport (x : Sample) (l : Limits) (q : Nat) : Cause :=
  if l.cond ≤ q then .overpressure else if otherRail x = true then .sensorRange
  else if q < l.low then .leakDrop else .overband

theorem firstReport_eq {railed : Prop} [Decidable railed] (rail : railed ↔ otherRail x = true) :
    firstReport x l q = if l.cond ≤ q then .overpressure else if railed then .sensorRange
      else if q < l.low then .leakDrop else .overband := by
  simp only [firstReport, rail]

theorem firstReport_top (some' : Reports x l q) : firstReport x l q ∈ holdSampleReports x l q ∧
    ∀ c ∈ holdSampleReports x l q, (firstReport x l q).code ≤ c.code := by
  simp only [mem_holdSampleReports]
  unfold Reports at some'
  unfold firstReport
  by_cases cond : l.cond ≤ q
  · rw [if_pos cond]
    refine ⟨.inr (.inl ⟨rfl, cond⟩), ?_⟩
    rintro c (⟨rfl, -⟩ | ⟨rfl, -⟩ | ⟨rfl, -⟩ | ⟨rfl, -⟩) <;> decide
  · rw [if_neg cond]
    by_cases rail : otherRail x = true
    · rw [if_pos rail]
      refine ⟨.inl ⟨rfl, rail⟩, ?_⟩
      rintro c (⟨rfl, -⟩ | ⟨rfl, pressed⟩ | ⟨rfl, -⟩ | ⟨rfl, -⟩)
      · decide
      · exact absurd pressed cond
      · decide
      · decide
    · rw [if_neg rail]
      by_cases low : q < l.low
      · rw [if_pos low]
        refine ⟨.inr (.inr (.inr ⟨rfl, low⟩)), ?_⟩
        rintro c (⟨rfl, railed⟩ | ⟨rfl, pressed⟩ | ⟨rfl, -⟩ | ⟨rfl, -⟩)
        · exact absurd railed rail
        · exact absurd pressed cond
        · decide
        · decide
      · rw [if_neg low]
        have top : l.top < q := ((some'.resolve_left rail).resolve_left cond).resolve_right low
        refine ⟨.inr (.inr (.inl ⟨rfl, top⟩)), ?_⟩
        rintro c (⟨rfl, railed⟩ | ⟨rfl, pressed⟩ | ⟨rfl, -⟩ | ⟨rfl, dropped⟩)
        · exact absurd railed rail
        · exact absurd pressed cond
        · decide
        · exact absurd dropped low

/-- OVERPRESSURE and SENSOR_RANGE are TRIPs, the two others VENTs (Table 9-1). -/
theorem firstReport_isTrip : (firstReport x l q).isTrip = true ↔ l.cond ≤ q ∨ otherRail x = true := by
  unfold firstReport
  by_cases cond : l.cond ≤ q
  · simp [cond, Cause.isTrip, Cause.code]
  · by_cases rail : otherRail x = true
    · simp [cond, rail, Cause.isTrip, Cause.code]
    · by_cases low : q < l.low <;> simp [cond, rail, low, Cause.isTrip, Cause.code]

/-! ### The condition taken (R145 to R151) -/

/-- A window in its settle skip changes alone (R129). -/
theorem windowStage_skips (phase : Option HeadState) (skip : 0 < u.msu.window.skip) :
    ∃ w, windowStage phase x u = withWindow w u := by
  unfold windowStage
  split
  · split
    · exact ⟨_, if_pos skip⟩
    · exact ⟨u.msu.window, rfl⟩
  · exact ⟨u.msu.window, rfl⟩

/-- A head that has left its reading phase feeds its window no more (log 9). -/
theorem windowStage_elsewhere {t : State} {k : HeadState} (at' : t.tsq.state = some k) (reads : k.reads = false) :
    windowStage s.numberedPhase x t = t := by
  cases numbered : s.numberedPhase with
  | none => rfl
  | some j =>
    have other : j ≠ k := by
      rintro rfl
      unfold State.numberedPhase at numbered
      split at numbered
      · split at numbered
        · rename_i taken
          rw [Option.some.inj numbered, reads] at taken
          simp at taken
        · simp at numbered
      · simp at numbered
    exact if_neg (by simpa [State.headIs, at'] using other.symm)

/-- The reports of a sample in a test: the one of highest priority is taken into SAFE, or VENTs alone complete at once
with the pressure down; the window of the sample is not fed (log 9). -/
theorem SampleUsed.reported {cs : List Cause} {top : Cause}
    (used : SampleUsed p x s h (some { d with test := some z }) u) (test : h.inTest = true)
    (made : usePressure s.tsq.peakOwed (tickRead p x s) = u) (reports : sampleReports u = cs) (nodup : cs.Nodup)
    (ok : ∀ c ∈ cs, c.activeIn h = true ∧ c ∉ u.ilk.disarmed ∧ c ≠ .pressureSwitch ∧ c ≠ .aborted)
    (mem : top ∈ cs) (least : ∀ c ∈ cs, top.code ≤ c.code) :
    let listed := if h = .holding then
        { cs.foldl TestPart.append z with holdEnd := some s.roundStamp, holdMean := holdMean u.msu }
      else cs.foldl TestPart.append z
    let t := headSample p x s
    (top.isTrip = true ∨ s.params.ventDone ≤ convertPressure s.params x.press →
      t.tsq.state = some .safe ∧ t.ilk.inForce = some top ∧ t.ilk.timer.ticks = 0 ∧ t.tsq.safeFrom = some h ∧
      t.msu.window = {} ∧ t.tsq.docket = some { d with test := some listed }) ∧
    (top.isTrip = false → convertPressure s.params x.press < s.params.ventDone →
      t.tsq.state = (if p.seat then some .draining else some .done) ∧ t.ilk.inForce = none ∧ t.ilk.latched = [] ∧
      t.tsq.docket = some { d with test := some (assembleVerdict s.params d listed) }) := by
  have out : h ≠ .safe := by rintro rfl; exact absurd test (by decide)
  obtain ⟨enters, completes⟩ := raise_many h top cs u nodup used.state out test used.free used.quiet ok mem least
  rw [used.vented, used.docket, used.stamp] at enters
  rw [used.vented, used.docket, used.stamp, used.inputs, used.params] at completes
  dsimp only
  rw [headSample_stages p x s u made, reports]
  refine ⟨fun stays => ?_, fun vent down => ?_⟩
  · obtain ⟨state, taken, -, timer, origin, window, docket⟩ :=
      enters (stays.imp_right fun high => decide_eq_false (Nat.not_lt.mpr high))
    rw [windowStage_elsewhere state (by decide)]
    exact ⟨state, taken, timer, origin, window, docket⟩
  · obtain ⟨state, free, quiet, docket⟩ := completes vent (decide_eq_true down)
    have unread : windowStage s.numberedPhase x (raise cs u) = raise cs u := by
      cases seat : p.seat <;> simp only [seat, Bool.false_eq_true, if_false, if_true] at state <;>
        exact windowStage_elsewhere state (by decide)
    rw [unread]
    exact ⟨state, free, quiet, docket⟩

end

end Sys2Proof.Machine
end

section
/-! What a sample with its pressure in range comes to, state by state (R97 to R99, R125, R134 to R137, R149). -/

namespace Sys2Proof.Machine

section
variable {p : Pins} {x : Sample} {s : State} {h : HeadState} {d : Docket} {y : TestPart} {l : Limits}

section
variable (at' : s.tsq.state = some h) (free : s.ilk.inForce = none) (quiet : s.ilk.latched = [])
  (slot : s.tsq.docket = some d) (test : d.test = some y) (range : atRail x.press = false)
include at' free quiet slot test range

/-! ### The ramp (R97, R135) -/

section
variable (ramp : h = .ramping)
include ramp

/-- Under test pressure the ramp goes on. -/
theorem headSample_ramp (under : convertPressure s.params x.press < d.testPressure) (inRange : otherRail x = false) :
    let t := headSample p x s
    t.tsq.state = some .ramping ∧
    t.tsq.docket = some { d with test := some (peaked (convertPressure s.params x.press) y) } := by
  have read := tickRead_used (p := p) at' free quiet range
  have used := raisePeak_used (p := p) at' free quiet slot test range
  have target := tickRead_testPressure (p := p) (x := x) slot
  subst ramp
  have none' := used.reports_outside (by decide)
  rw [inRange] at none'
  dsimp only
  rw [used.feeds (usePressure_ramp _ read.state read.pressure (under.trans_eq target.symm)) none',
    numberedPhase_none at' (by decide)]
  exact ⟨used.state, used.docket⟩

/-- With a rail it ends in SAFE. -/
theorem headSample_ramp_rail (under : convertPressure s.params x.press < d.testPressure) (rail : otherRail x = true)
    (armed : .sensorRange ∉ s.ilk.disarmed) :
    let t := headSample p x s
    t.tsq.state = some .safe ∧ t.ilk.inForce = some .sensorRange ∧ t.ilk.timer.ticks = 0 ∧
    t.tsq.safeFrom = some .ramping ∧ t.msu.window = {} ∧
    t.tsq.docket = some
      { d with test := some ((peaked (convertPressure s.params x.press) y).append .sensorRange) } := by
  have read := tickRead_used (p := p) at' free quiet range
  have used := raisePeak_used (p := p) at' free quiet slot test range
  have target := tickRead_testPressure (p := p) (x := x) slot
  subst ramp
  have one := used.reports_outside (by decide)
  rw [rail] at one
  have ok : ∀ c ∈ [Cause.sensorRange], c.activeIn .ramping = true ∧
      c ∉ (raisePeak (convertPressure s.params x.press) (tickRead p x s)).ilk.disarmed ∧
      c ≠ .pressureSwitch ∧ c ≠ .aborted := by
    intro c only
    rw [List.mem_singleton.mp only]
    exact ⟨rfl, fun out => armed (used.disarmed _ out).1, by decide, by decide⟩
  obtain ⟨taken, -⟩ := used.reported (by decide)
    (usePressure_ramp _ read.state read.pressure (under.trans_eq target.symm)) one (List.nodup_singleton _) ok
    (List.mem_singleton.mpr rfl) (by simp)
  exact taken (.inl (by decide))

/-- At test pressure the head enters HOLDING with its first hold sample. -/
theorem headSample_enterHolding (reached : d.testPressure ≤ convertPressure s.params x.press)
    (limits : s.msu.limits = some l) (none' : ¬ Reports x l (convertPressure s.params x.press)) :
    let t := headSample p x s
    t.tsq.state = some .holding ∧ t.tsq.phase = some { ticks := 0, fresh := false } ∧
    t.tsq.docket = some { d with test := some (heldPart h (convertPressure s.params x.press) s y) } ∧
    t.msu.holdSum = convertPressure s.params x.press ∧ t.msu.holdCount = 1 ∧
    t.msu.window = { skip := s.params.settleSkip } ∧
    (headOutputs t).pressV = false ∧ (headOutputs t).pumpDemand = false := by
  have used := raisePeak_used (p := p) at' free quiet slot test range
  have held := enterHolding_sampled (p := p) at' free quiet slot test range ramp reached
  dsimp only
  rw [held.feeds held.made ((held.reports_holding limits).trans (holdSampleReports_none none')),
    numberedPhase_none at' (by rw [ramp]; rfl)]
  exact ⟨rfl, congrArg some used.newCounter, held.docket, rfl, rfl, congrArg freshWindow used.params, rfl, rfl⟩

end

/-! ### The hold (R98, R135, R136) -/

/-- The test part when HOLDING is left by a hold sample, the first included (R8, R98, R136). -/
def holdLeft (h : HeadState) (q : Nat) (s : State) (z : TestPart) : TestPart :=
  { z with holdEnd := some s.roundStamp
           holdMean := some (min 65535 (roundDivNat (holdSumAt h q s) (holdCountAt h s))) }

/-- A hold sample that reports something: the report of highest priority is taken, and VENTs alone complete at once with
the pressure down (R135, R147, R149). -/
theorem headSample_reports
    (hold : h = .holding ∨ (h = .ramping ∧ d.testPressure ≤ convertPressure s.params x.press))
    (limits : s.msu.limits = some l) (armed : otherRail x = true → .sensorRange ∉ s.ilk.disarmed)
    (reports : Reports x l (convertPressure s.params x.press)) :
    let q := convertPressure s.params x.press
    let listed := holdLeft h q s ((holdSampleReports x l q).foldl TestPart.append (heldPart h q s y))
    let t := headSample p x s
    (l.cond ≤ q ∨ otherRail x = true ∨ s.params.ventDone ≤ q →
      t.tsq.state = some .safe ∧ t.ilk.inForce = some (firstReport x l q) ∧ t.ilk.timer.ticks = 0 ∧
      t.tsq.safeFrom = some .holding ∧ t.msu.window = {} ∧ t.tsq.docket = some { d with test := some listed }) ∧
    (q < l.cond → ¬ otherRail x = true → q < s.params.ventDone →
      t.tsq.state = (if p.seat then some .draining else some .done) ∧ t.ilk.inForce = none ∧ t.ilk.latched = [] ∧
      t.tsq.docket = some { d with test := some (assembleVerdict s.params d listed) }) := by
  obtain ⟨u, held⟩ := holdSample_used (p := p) at' free quiet slot test range hold
  have ok : ∀ c ∈ holdSampleReports x l (convertPressure s.params x.press), c.activeIn .holding = true ∧
      c ∉ u.ilk.disarmed ∧ c ≠ .pressureSwitch ∧ c ≠ .aborted := by
    intro c report
    rcases (mem_holdSampleReports c).mp report with ⟨rfl, rail⟩ | ⟨rfl, -⟩ | ⟨rfl, -⟩ | ⟨rfl, -⟩
    · exact ⟨rfl, fun out => armed rail (held.disarmed _ out).1, by decide, by decide⟩
    · exact ⟨rfl, held.armed (by simp), by decide, by decide⟩
    · exact ⟨rfl, held.armed (by simp), by decide, by decide⟩
    · exact ⟨rfl, held.armed (by simp), by decide, by decide⟩
  obtain ⟨mem, least⟩ := firstReport_top reports
  obtain ⟨taken, completes⟩ := held.reported (by decide) held.made (held.reports_holding limits)
    holdSampleReports_nodup ok mem least
  rw [if_pos rfl, held.mean] at taken completes
  refine ⟨fun stays => taken ?_, fun under inRange down => completes ?_ down⟩
  · rw [firstReport_isTrip, or_assoc]
    exact stays
  · rw [Bool.eq_false_iff, ne_eq, firstReport_isTrip]
    exact not_or.mpr ⟨Nat.not_le.mpr under, inRange⟩

/-- In the settle skip of HOLDING a sample within the band adds to the hold alone (R129, R136). -/
theorem headSample_hold_skips (hold : h = .holding) (limits : s.msu.limits = some l)
    (none' : ¬ Reports x l (convertPressure s.params x.press)) (skip : 0 < s.msu.window.skip) :
    let q := convertPressure s.params x.press
    let t := headSample p x s
    t.tsq.state = some .holding ∧ t.msu.holdSum = s.msu.holdSum + q ∧ t.msu.holdCount = s.msu.holdCount + 1 ∧
    t.tsq.docket = some { d with test := some (peaked q y) } := by
  have held := addHold_sampled (p := p) at' free quiet slot test range hold
  have window : (tickRead p x s).msu.window = s.msu.window := by rw [(tickRead_parts p x s).2]
  subst hold
  dsimp only
  rw [held.feeds held.made ((held.reports_holding limits).trans (holdSampleReports_none none'))]
  obtain ⟨w, stage⟩ := windowStage_skips (x := x) s.numberedPhase
    (u := addHold (convertPressure s.params x.press) (raisePeak (convertPressure s.params x.press) (tickRead p x s)))
    (show 0 < (tickRead p x s).msu.window.skip by rwa [window])
  rw [stage]
  exact ⟨held.state, held.sum, held.count, held.docket⟩

end

/-! ### The vent (R99, R137) -/

/-- Under vent_done the vent goes on to SETTLING. -/
theorem headSample_vent (at' : s.tsq.state = some .venting) (free : s.ilk.inForce = none)
    (quiet : s.ilk.latched = []) (range : atRail x.press = false) (inRange : otherRail x = false) :
    headSample p x s =
      if convertPressure s.params x.press < s.params.ventDone then enterReading .settling (tickRead p x s)
      else tickRead p x s := by
  have read := tickRead_used (p := p) at' free quiet range
  have made := usePressure_vent s.tsq.peakOwed read.state read.pressure
  rw [read.params] at made
  have fed {h : HeadState} {u : State} (used : SampleUsed p x s h s.tsq.docket u) (other : h ≠ .holding)
      (made : usePressure s.tsq.peakOwed (tickRead p x s) = u) : headSample p x s = u := by
    have none' := used.reports_outside other
    rw [inRange] at none'
    rw [used.feeds made none', numberedPhase_none at' (by decide)]
    rfl
  split
  · rename_i down
    exact fed (read.enterReading .settling) (by decide) (made.trans (if_pos down))
  · rename_i up
    exact fed read (by decide) (made.trans (if_neg up))

end

/-- Settles O47: the events that leave the ramp or the hold ahead of their tick's sample, the sample that is owed to the
peak then, and the samples of the ramp, the hold and the vent. -/
theorem samplesDriveRampHoldVent : Obligations.SamplesDriveRampHoldVent := by
  refine ⟨fun p x i s => ?_, fun p x d y s => ?_, fun p x h l d y s => ?_⟩
  · dsimp only
    intro role state free _ event
    exact event_leavesOwing p x i role state free event
  · intro role owed slot test left railed q unowed' peaked'
    have peak : raisePeak q (unowed s) = { s with tsq := peaked' } := raisePeak_unowed q slot test
    have railed_iff (code : BitVec 16) : railed code ↔ atRail code = true := (atRail_iff code).symm
    simp only [railed_iff, Bool.not_eq_true]
    refine ⟨fun range => ?_, fun rail => ?_, fun rests agrees level press temp => ?_⟩
    · rw [exec_sampleTick p x s role, headSample_owed left owed range, ← peak]
      exact (exec_sampleTick p x (raisePeak q (unowed s)) role).symm
    · rw [exec_sampleTick p x s role, headSample_owed_rail left owed rail]
      exact (exec_sampleTick p x (unowed s) role).symm
    · have tsq := raisePeak_tickRead_tsq (p := p) (x := x) q slot test
      have msu := (tickRead_parts p x s).2
      have ilk := tickRead_ilk p x s
      refine ⟨raisePeak q (tickRead p x s), ?_, ?_, ?_, tickRead_adm p x s, (congrArg Ilk.latched ilk :),
        (congrArg Ilk.inForce ilk :), (congrArg Ilk.marks ilk :)⟩
      · rw [exec_sampleTick p x s role, headSample_rests owed rests agrees level press temp]
      · rw [tsq]
      · refine msu.trans ?_
        simp only [level, press, temp, Bool.false_eq_true, if_false]
        rfl
  · intro role at' free quiet limits slot test low high railed armed q run peak sum count ended held listed reports
      first w level strays crossings mean total
    have rail : railed ↔ otherRail x = true := otherRail_iff x
    have inRange (no : ¬ railed) : otherRail x = false := Bool.eq_false_iff.mpr (mt rail.mpr no)
    have range := atRail_inRange low high
    have ran : run = .next (headSample p x s) := exec_sampleTick p x s role
    have some' : reports ↔ Reports x l q := or_congr_left rail
    refine ⟨fun ramp under no => ?_, fun ramp under yes => ?_, fun ramp reached none' => ?_,
      fun hold yes => ?_, fun c hold none' runs old expired skipped unshut full stable cold hot => ?_,
      fun hold none' skip => ?_, fun venting no down => ?_, fun venting no up => ?_⟩
    · exact ⟨_, ran, headSample_ramp at' free quiet slot test range ramp under (inRange no)⟩
    · exact ⟨_, ran, headSample_ramp_rail at' free quiet slot test range ramp under (rail.mp yes) (armed yes)⟩
    · exact ⟨_, ran, headSample_enterHolding at' free quiet slot test range ramp reached limits (mt some'.mpr none')⟩
    · obtain ⟨taken, completes⟩ := headSample_reports (p := p) at' free quiet slot test range hold limits
        (fun yes => armed (rail.mpr yes)) (some'.mp yes)
      rw [foldl_holdSampleReports rail] at taken completes
      rw [firstReport_eq rail] at taken
      exact ⟨_, ran, fun stays => taken (stays.imp_right (Or.imp_left rail.mp)),
        fun under no down => completes under (mt rail.mpr no) down⟩
    · subst hold
      have within : holdReports l q = [] := holdReports_none (Nat.not_le.mp fun pressed => none' (.inr (.inl pressed)))
        (Nat.not_lt.mp fun above => none' (.inr (.inr (.inl above))))
        (Nat.not_lt.mp fun below => none' (.inr (.inr (.inr below))))
      obtain ⟨u, reached, does⟩ := headSample_reaches (p := p) at' runs old free quiet slot test range
        (inRange fun yes => none' (.inl yes)) rfl (fun other => absurd rfl other) fun _ => ⟨l, limits, within⟩
      have judged := (reached.judges skipped (fun _ => .inl expired) unshut full).trans
        (judgeWindow_reading .holding _ u stable cold hot)
      obtain ⟨state, -, docket⟩ := reached.totalReading (w.levelSum + level) mean.toNat
      exact ⟨_, ran.trans (congrArg _ (does.trans judged)), state, docket⟩
    · exact ⟨_, ran, headSample_hold_skips at' free quiet slot test range hold limits (mt some'.mpr none') skip⟩
    · subst venting
      have read := tickRead_used (p := p) at' free quiet range
      refine ⟨_, ran.trans (congrArg _ ((headSample_vent at' free quiet range (inRange no)).trans (if_pos down))), rfl,
        congrArg freshWindow read.params, read.docket⟩
    · subst venting
      have read := tickRead_used (p := p) at' free quiet range
      exact ⟨_, ran.trans (congrArg _ ((headSample_vent at' free quiet range (inRange no)).trans
        (if_neg (Nat.not_lt.mpr up)))), read.state, read.docket⟩

end Sys2Proof.Machine
end

section
/-! RESPONSE_COMPLETE (R107 to R109, R147 to R149, R151, R152; logs 39, 40): when a response has completed, the marks after
it, what is taken next, and where a head goes that leaves SAFE. -/

namespace Sys2Proof.Machine

section
variable {c : Cause} {s : State}

/-! ### The response that completes (R148, R149) -/

/-- The TRIPs are the codes 1 to 5 (Table 9-1). -/
theorem Cause.isTrip_iff (c : Cause) : c.isTrip = true ↔ c.code ≤ 5 := by cases c <;> decide

/-- A TRIP waits for its dwell, for the pressure to be down or not to be read, and ESTOP for its input; a VENT waits for
the pressure alone, or for the dwell while it cannot be read. -/
theorem responseDone_iff (taken : s.ilk.inForce = some c) : s.responseDone = true ↔
    if c.code ≤ 5 then s.params.tripDwell * 20 ≤ s.ilk.timer.ticks ∧ (s.vented = true ∨ s.msu.pressRail = true) ∧
      (c = .estop → s.inputs.estop = false)
    else s.vented = true ∨ (s.msu.pressRail = true ∧ s.params.tripDwell * 20 ≤ s.ilk.timer.ticks) := by
  have dwell : decide (s.params.tripDwell * Config.ticksPerSecond ≤ s.ilk.timer.ticks) = true ↔
      s.params.tripDwell * 20 ≤ s.ilk.timer.ticks := decide_eq_true_iff
  unfold State.responseDone
  simp only [taken, Cause.isTrip_iff]
  split
  · simp only [Bool.and_eq_true, dwell]
    simp [and_assoc, imp_iff_not_or]
  · simp only [Bool.or_eq_true, Bool.and_eq_true, dwell]

/-- The marks once the response to `c` has completed (R152). -/
def marksAfter (c : Cause) (marks : List Cause) : List Cause :=
  if c.isSticky && !marks.contains c then marks ++ [c] else marks

theorem mem_marksAfter (x c : Cause) (marks : List Cause) : x ∈ marksAfter c marks ↔
    x ∈ marks ∨ (x = c ∧ (c = .overpressure ∨ c = .pressureSwitch ∨ c = .sensorRange)) := by
  have sticky : c.isSticky = true ↔ c = .overpressure ∨ c = .pressureSwitch ∨ c = .sensorRange := by
    simp [Cause.isSticky, or_assoc]
  rw [← sticky]
  unfold marksAfter
  by_cases stands : c ∈ marks
  · have same : x ∈ marks ∨ (x = c ∧ c.isSticky = true) ↔ x ∈ marks :=
      or_iff_left_of_imp fun ⟨only, _⟩ => only ▸ stands
    simp [stands, same]
  · cases c.isSticky <;> simp [stands]

/-- What the completion leaves of the interlock unit, ahead of the choice of what is next. -/
def responseOver (c : Cause) (s : State) : State :=
  s.withIlk { s.ilk with
    latched := s.ilk.latched.filter (· != c), marks := marksAfter c s.ilk.marks, inForce := none }

theorem completeResponse_taken (taken : s.ilk.inForce = some c) :
    completeResponse s = chooseNext (responseOver c s) := by
  rw [completeResponse, taken]
  rfl

/-- The interlock unit with nothing latched any more. -/
def lastResponseOver (c : Cause) (s : State) : State :=
  s.withIlk { s.ilk with inForce := none, latched := [], marks := marksAfter c s.ilk.marks }

/-! ### What is taken next (R147, R149, R151) -/

/-- The condition of highest priority is taken, but for a VENT with the pressure down. -/
theorem chooseNext_takes (top : s.topLatched = some c) (stays : c.code ≤ 5 ∨ s.vented = false) :
    chooseNext s = s.withIlk { s.ilk with inForce := some c, timer := s.newCounter } := by
  have takes : (c.isTrip || !s.vented) = true := by simpa [Cause.isTrip_iff] using stays
  rw [chooseNext, top]
  exact if_pos takes

/-- With nothing latched but VENTs whose pressure is down, SAFE is left. -/
theorem chooseNext_leaves (vents : ∀ x ∈ s.ilk.latched, 5 < x.code ∧ s.vented = true) :
    chooseNext s = leaveSafe (s.withIlk { s.ilk with inForce := none, latched := [] }) := by
  unfold chooseNext
  cases top : s.topLatched with
  | none => rw [← (topLatched_eq_none s).mp top]
  | some x =>
    obtain ⟨above, down⟩ := vents x ((s.topLatched_iff x).mp top).1
    have passes : ¬ (x.isTrip || !s.vented) = true := by simp [Cause.isTrip_iff, above, down]
    exact if_neg passes

/-! ### Where the head goes (R107 to R109) -/

/-- Leaving SAFE is a move of the sequencer alone. -/
theorem reenter_eq (h : HeadState) (s : State) : reenter h s = s.withTsq (reenter h s).tsq := by
  cases h with
  | idle => exact (enterIdle_kept s).1
  | unloading =>
    unfold reenter
    dsimp only
    split <;> rfl
  | _ => rfl

theorem leaveSafe_eq (s : State) : leaveSafe s = s.withTsq (leaveSafe s).tsq := by
  unfold leaveSafe
  split
  · dsimp only
    split <;> rfl
  · split
    · exact reenter_eq _ _
    · rfl

/-- After a test the verdict is assembled, and the head drains or waits in DONE (R107). -/
theorem leaveSafe_test {h : HeadState} (origin : s.tsq.safeFrom = some h) :
    (leaveSafe s).tsq.state = (if s.inputs.seat then some .draining else some .done) ∧
    (leaveSafe s).tsq.safeFrom = none ∧
    (leaveSafe s).tsq.docket = s.tsq.docket.map fun d => d.onTest (assembleVerdict s.params d) := by
  unfold leaveSafe
  rw [origin]
  dsimp only
  split
  · rename_i seat
    exact ⟨(if_pos seat).symm, rfl, rfl⟩
  · rename_i seat
    exact ⟨(if_neg seat).symm, rfl, rfl⟩

/-- Outside a test the head goes back to the state that SAFE was entered from, which is cleared (R108; log 39). -/
theorem leaveSafe_back {h : HeadState} (origin : s.tsq.safeFrom = none) (back : s.tsq.returnState = some h) :
    leaveSafe s = reenter h (s.withTsq { s.tsq with returnState := none }) := by
  rw [leaveSafe, origin, back]

/-- Going back moves neither the docket nor the return state. -/
theorem reenter_kept (h : HeadState) (s : State) :
    (reenter h s).tsq.docket = s.tsq.docket ∧ (reenter h s).tsq.returnState = s.tsq.returnState := by
  cases h with
  | idle =>
    obtain ⟨-, docket, -, -, back, -⟩ := enterIdle_kept s
    exact ⟨docket, back⟩
  | unloading =>
    unfold reenter
    dsimp only
    split <;> exact ⟨rfl, rfl⟩
  | _ => exact ⟨rfl, rfl⟩

/-- UNLOADING has its gate open again, with its timer started, exactly when the return has been accepted (R108). -/
theorem reenter_unloading (s : State) :
    let t := reenter .unloading s
    t.tsq.state = some .unloading ∧ t.tsq.gateOpen = s.tsq.gateFlag ∧ t.tsq.gateFlag = s.tsq.gateFlag ∧
    t.tsq.caller = s.tsq.caller ∧ t.tsq.phase = (if s.tsq.gateFlag then some s.newCounter else none) := by
  have opens : reenter .unloading s =
      if s.tsq.gateFlag then openGate (enterUnloading s) else enterUnloading s := rfl
  dsimp only
  rw [opens]
  cases gate : s.tsq.gateFlag <;> exact ⟨rfl, rfl, gate, rfl, rfl⟩

/-- OUT_OF_SERVICE stands as it was left, with its cause (R108, R109). -/
theorem reenter_outOfService {k : Cause} (cause : s.tsq.oosCause = some k) :
    let t := reenter .outOfService s
    t.tsq.state = some .outOfService ∧ t.tsq.oosCause = some k ∧ t.tsq.gateOpen = false ∧ t.tsq.lidLock = false := by
  have same : reenter .outOfService s = enterOos k s := by
    rw [reenter, cause]
    rfl
  dsimp only
  rw [same]
  exact ⟨rfl, rfl, rfl, rfl⟩

end

/-- Settles O43: a response that has not completed, one with nothing behind it to take, and one with a condition behind
it that is taken next. -/
theorem responseCompletes : Obligations.ResponseCompletes := by
  intro c s role safe taken dwell done marked
  have mark : marked (marksAfter c s.ilk.marks) := fun x => mem_marksAfter x c _
  have runs (yes : done) : exec .responseComplete s = .next (chooseNext (responseOver c s)) :=
    next_atHead role ((if_pos ((responseDone_iff taken).mpr yes)).trans (completeResponse_taken taken))
  refine ⟨fun no => next_atHead role (if_neg (mt (responseDone_iff taken).mp no)), fun yes last => ?_,
    fun d yes latched other least stays => ⟨_, mark, ?_⟩⟩
  · have vents : ∀ x ∈ (responseOver c s).ilk.latched, 5 < x.code ∧ (responseOver c s).vented = true := by
      intro x mem
      obtain ⟨mem, other⟩ := List.mem_filter.mp mem
      exact (last x mem).resolve_left (by simpa using other)
    have goes : exec .responseComplete s = .next (leaveSafe (lastResponseOver c s)) :=
      (runs yes).trans (congrArg _ (chooseNext_leaves vents))
    have moves := leaveSafe_eq (lastResponseOver c s)
    have back {h : HeadState} := leaveSafe_back (s := lastResponseOver c s) (h := h)
    have ilk := leaveSafe_ilk (lastResponseOver c s)
    refine ⟨_, goes, ?_, ?_, leaveSafe_inputs _, (congrArg State.msu moves :), (congrArg State.adm moves :),
      fun h origin => leaveSafe_test (s := lastResponseOver c s) origin, fun origin returns => ?_,
      fun origin idle => ?_, fun origin finished => ?_, fun origin unloading => ?_, fun k origin out cause => ?_,
      leaveSafe_outsideHead _⟩
    · rw [ilk]
      rfl
    · rw [ilk]
      exact mark
    · obtain ⟨h, returns⟩ := Option.isSome_iff_exists.mp returns
      rw [back origin returns]
      exact reenter_kept h _
    · rw [ilk, back origin idle]
      exact enterIdle_goes _
    · rw [ilk, back origin finished]
      exact ⟨rfl, rfl, doneIsUrgent_iff _⟩
    · rw [back origin unloading]
      exact reenter_unloading _
    · rw [back origin out]
      exact reenter_outOfService cause
  · have top : (responseOver c s).topLatched = some d := by
      refine ((responseOver c s).topLatched_iff d).mpr ⟨List.mem_filter.mpr ⟨latched, by simpa using other⟩, ?_⟩
      intro x mem
      obtain ⟨mem, ne⟩ := List.mem_filter.mp mem
      exact least x mem (by simpa using ne)
    exact (runs yes).trans (congrArg _ (chooseNext_takes top stays))

end Sys2Proof.Machine
end

section
/-! Pre-emption in SAFE (R143, R145 to R147, R150): a condition that latches there takes over from one of lower priority,
and waits behind one of higher. -/

namespace Sys2Proof.Machine

section
variable {c f : Cause} {timer : TickCounter} {s u v : State}

/-! ### What can latch in SAFE (R143, R145) -/

/-- ESTOP and PRESSURE_SWITCH are active whatever state SAFE was entered from. -/
theorem condActive_safe_always (safe : s.tsq.state = some .safe) (always : c = .estop ∨ c = .pressureSwitch) :
    s.condActive c = true := by
  unfold State.condActive
  rw [safe]
  rcases always with rfl | rfl <;> cases s.tsq.safeFrom <;> rfl

/-- A cause that can arise in SAFE is active there when it is in the state of the test that SAFE was entered from. -/
theorem condActive_safe_test {h : HeadState} (safe : s.tsq.state = some .safe) (origin : s.tsq.safeFrom = some h) :
    s.condActive c = (c.arisesInSafe && c.activeIn h) := by
  simp only [State.condActive, safe, origin]

/-- A condition active and armed latches, unless it is latched or in force already (R145). -/
theorem latches_of (active : s.condActive c = true) (armed : s.condArmed c = true) (unlatched : c ∉ s.ilk.latched)
    (other : s.ilk.inForce ≠ some c) : s.latches c = true := by
  simp [State.latches, active, armed, unlatched, other]

/-! ### What latches takes over, or waits (R147, R150) -/

/-- A TRIP above the response in force takes over, its timer at 0. -/
theorem respond_preempts (taken : v.ilk.inForce = some f) (top : v.topLatched = some c) (above : c.code < f.code)
    (trip : c.code ≤ 5) : respond v = v.withIlk { v.ilk with inForce := some c, timer := v.newCounter } := by
  have preempts : respond v = chooseNext v := by simp [respond, top, taken, above]
  rw [preempts]
  exact chooseNext_takes top (.inl trip)

/-- The head is in SAFE as in `s`, response `f` in force above all that is latched and its timer at `timer`, once the
tick or the input of an event has been read. -/
structure SafeRead (f : Cause) (timer : TickCounter) (s u : State) : Prop where
  state : u.tsq.state = some .safe
  taken : u.ilk.inForce = some f
  top : s.topLatched = some f
  latched : u.ilk.latched = s.ilk.latched
  disarmed : ∀ d ∈ u.ilk.disarmed, d ∈ s.ilk.disarmed
  marks : u.ilk.marks = s.ilk.marks
  timer : u.ilk.timer = timer
  origin : u.tsq.safeFrom = s.tsq.safeFrom
  docket : u.tsq.docket = s.tsq.docket
  outside : u.outsideHead = s.outsideHead

/-- The head is in SAFE after condition `c` has latched behind or above the response `f`, as O42 has it. -/
def PreemptsOrWaits (c f : Cause) (timer : TickCounter) (s t : State) : Prop :=
  t.tsq.state = some .safe ∧ t.ilk.latched = s.ilk.latched ++ [c] ∧ t.ilk.marks = s.ilk.marks ∧
  (c.code < f.code → t.ilk.inForce = some c ∧ t.ilk.timer.ticks = 0) ∧
  (f.code < c.code → t.ilk.inForce = some f ∧ t.ilk.timer = timer) ∧
  (s.tsq.safeFrom = none → t.tsq.docket = s.tsq.docket) ∧
  (s.tsq.safeFrom.isSome = true → t.tsq.docket = s.tsq.docket.map (Docket.onTest fun x => x.append c)) ∧
  t.outsideHead = s.outsideHead

theorem SafeRead.active {states : List HeadState} (read : SafeRead f timer s u)
    (origin : ∃ h ∈ states, s.tsq.safeFrom = some h) (arises : c.arisesInSafe = true)
    (active : ∀ h ∈ states, c.activeIn h = true) : u.condActive c = true := by
  obtain ⟨h, mem, origin⟩ := origin
  rw [condActive_safe_test read.state (read.origin.trans origin), arises, active h mem]
  rfl

/-- A condition that latches in SAFE is listed when a test is under way, and takes over or waits. The two edge inputs
may have been disarmed meanwhile (R145, R146, R150). -/
theorem SafeRead.latches (read : SafeRead f timer s u) (active : u.condActive c = true) (armed : u.condArmed c = true)
    (unlatched : c ∉ s.ilk.latched) (other : f ≠ c) (ranks : c.code ≤ 5 ∨ f.code < c.code) (a b : Bool) :
    let t := respond ((latchOne c u).withIlk { (latchOne c u).ilk with pswArmed := a, abortArmed := b })
    PreemptsOrWaits c f timer s t ∧ t.ilk.pswArmed = a ∧ t.ilk.abortArmed = b := by
  have takes : u.latches c = true :=
    latches_of active armed (by rwa [read.latched]) fun same => other (Option.some.inj (read.taken.symm.trans same))
  have under : u.testUnderWay = s.tsq.safeFrom.isSome := by simp only [State.testUnderWay, read.state, read.origin]
  obtain ⟨mem, least⟩ := (s.topLatched_iff f).mp read.top
  dsimp only
  generalize hv : (latchOne c u).withIlk { (latchOne c u).ilk with pswArmed := a, abortArmed := b } = v
  rw [latchOne_taken c u takes, under, read.docket, read.latched] at hv
  have latched : v.ilk.latched = s.ilk.latched ++ [c] := by rw [← hv]; rfl
  have taken : v.ilk.inForce = some f := by rw [← hv]; exact read.taken
  have listed (i : Ilk) (marks : i.marks = s.ilk.marks) (same : i.latched = s.ilk.latched ++ [c])
      (above : c.code < f.code → i.inForce = some c ∧ i.timer.ticks = 0)
      (below : f.code < c.code → i.inForce = some f ∧ i.timer = timer) :
      PreemptsOrWaits c f timer s (v.withIlk i) := by
    refine ⟨?_, same, marks, above, below, fun origin => ?_, fun origin => ?_, ?_⟩
    · rw [← hv]; exact read.state
    · rw [← hv]; exact if_neg (by simp [origin])
    · rw [← hv]; exact if_pos origin
    · rw [← hv]; exact read.outside
  rcases Nat.lt_trichotomy c.code f.code with above | same | below
  · have top : v.topLatched = some c := by
      refine (v.topLatched_iff c).mpr ⟨by simp [latched], fun d later => ?_⟩
      rw [latched, List.mem_append, List.mem_singleton] at later
      rcases later with old | rfl
      · exact Nat.le_of_lt (above.trans_le (least d old))
      · exact Nat.le_refl _
    rw [respond_preempts taken top above (ranks.resolve_right (Nat.lt_asymm above))]
    refine ⟨listed _ ?_ latched (fun _ => ⟨rfl, rfl⟩) fun below => absurd below (Nat.lt_asymm above), ?_, ?_⟩
    · rw [← hv]; exact read.marks
    · rw [← hv]; rfl
    · rw [← hv]; rfl
  · exact absurd (Cause.code_inj _ _ same).symm other
  · have stays : respond v = v := by
      refine respond_stays v fun d later => ⟨f, taken, ?_⟩
      rw [latched, List.mem_append, List.mem_singleton] at later
      rcases later with old | rfl
      · exact least d old
      · exact Nat.le_of_lt below
    rw [stays]
    refine ⟨listed v.ilk ?_ latched (fun above => absurd above (Nat.lt_asymm below)) fun _ => ⟨taken, ?_⟩, ?_, ?_⟩
    · rw [← hv]; exact read.marks
    · rw [← hv]; exact read.timer
    · rw [← hv]; rfl
    · rw [← hv]; rfl

/-- The same of a condition that an event or a sample raises. -/
theorem SafeRead.raised (read : SafeRead f timer s u) (active : u.condActive c = true) (armed : u.condArmed c = true)
    (unlatched : c ∉ s.ilk.latched) (other : f ≠ c) (ranks : c.code ≤ 5 ∨ f.code < c.code) :
    PreemptsOrWaits c f timer s (raise [c] u) :=
  (read.latches active armed unlatched other ranks (latchOne c u).ilk.pswArmed (latchOne c u).ilk.abortArmed).1

/-! ### The reading ahead of it -/

/-- The response timer advances at a tick (R147). -/
theorem tickRead_timer (p : Pins) (x : Sample) (taken : s.ilk.inForce = some f) :
    (tickRead p x s).ilk.timer = s.ilk.timer.advance := by
  simp [tickRead, advanceTimers, rearm, readChannels, senseInputs, taken]

/-- An edge input that is armed stays so when the tick is read (R88). -/
theorem openTick_pswArmed (o : TickOrder) (edge : s.ilk.pswArmed = true) : (openTick o s).ilk.pswArmed = true := by
  cases o with
  | beforeSample p x => exact Bool.or_eq_true_iff.mpr (.inl edge)
  | afterSample => exact edge

theorem openTick_abortArmed (o : TickOrder) (edge : s.ilk.abortArmed = true) :
    (openTick o s).ilk.abortArmed = true := by
  cases o with
  | beforeSample p x => exact Bool.or_eq_true_iff.mpr (.inl edge)
  | afterSample => exact edge

section
variable (safe : s.tsq.state = some .safe) (taken : s.ilk.inForce = some f) (top : s.topLatched = some f)
include safe taken top

/-- The input of an event, and its tick. -/
theorem openTick_safeRead (g : Pins → Pins) (o : TickOrder) :
    SafeRead f s.ilk.timer s (withInput g (openTick o s)) := by
  cases o with
  | beforeSample p x => exact ⟨safe, taken, top, rfl, fun _ out => out, rfl, rfl, rfl, rfl, rfl⟩
  | afterSample => exact ⟨safe, taken, top, rfl, fun _ out => out, rfl, rfl, rfl, rfl, rfl⟩

theorem tickRead_safeRead (p : Pins) (x : Sample) : SafeRead f s.ilk.timer.advance s (tickRead p x s) := by
  have ilk := tickRead_ilk p x s
  have tsq := (tickRead_parts p x s).1
  exact {
    state := (congrArg Tsq.state tsq :).trans safe
    taken := (congrArg Ilk.inForce ilk :).trans taken
    top
    latched := (congrArg Ilk.latched ilk :)
    disarmed := fun d out => ((mem_tickRead_disarmed p x s d).mp out).1
    marks := (congrArg Ilk.marks ilk :)
    timer := tickRead_timer p x taken
    origin := (congrArg Tsq.safeFrom tsq :)
    docket := (congrArg Tsq.docket tsq :)
    outside := tickRead_outsideHead p x s }

/-- A sample with a channel at a rail reports SENSOR_RANGE in SAFE, and serves nothing else with no peak owed (R125). -/
theorem headSample_safe_rail (p : Pins) (x : Sample) (owed : s.tsq.peakOwed = false)
    (rail : (atRail x.level || atRail x.press || atRail x.temp) = true) :
    headSample p x s = raise [.sensorRange] (tickRead p x s) := by
  have read := tickRead_safeRead safe taken top p x
  have rails : (tickRead p x s).anyRail = true := by rwa [State.anyRail, (tickRead_parts p x s).2]
  have made : usePressure s.tsq.peakOwed (tickRead p x s) = tickRead p x s :=
    usePressure_unused _ .safe _ read.state (.inr ⟨owed, by decide, by decide, fun venting => nomatch venting⟩)
  rw [headSample_stages p x s _ made, sampleReports_quiet _ (.inl (by simp [State.headIs, read.state])), rails,
    numberedPhase_none safe (by decide)]
  rfl

/-- A second edge of the switch whose response is in force disarms its input alone (R88, R145). -/
theorem pswEdge_again (o : TickOrder) (edge : s.ilk.pswArmed = true) (own : f = .pressureSwitch) :
    pswEdge o s = { openTick o s with
      inputs := { (openTick o s).inputs with psw := true }
      ilk := { (openTick o s).ilk with pswArmed := false } } := by
  have read := openTick_safeRead safe taken top (fun p => { p with psw := true }) o
  subst own
  have not' : (withInput (fun p => { p with psw := true }) (openTick o s)).latches .pressureSwitch = false := by
    simp [State.latches, read.taken]
  rw [pswEdge, if_pos edge, latchOne_not _ _ not']
  refine respond_stays _ fun d later => ⟨_, read.taken, ?_⟩
  exact ((s.topLatched_iff _).mp top).2 d (read.latched ▸ later)

end

end

/-- Settles O42: each of the five conditions latches in SAFE and takes over or waits, and a second edge of the switch
leaves its input disarmed. -/
theorem higherPriorityPreempts : Obligations.HigherPriorityPreempts := by
  intro o f s role safe taken top fromOne takes
  have read (g : Pins → Pins) := openTick_safeRead safe taken top g o
  have armed (c : Cause) {u : State} (disarmed : ∀ d ∈ u.ilk.disarmed, d ∈ s.ilk.disarmed) (psw : c ≠ .pressureSwitch)
      (abort : c ≠ .aborted) (on : c ∉ s.ilk.disarmed) : u.condArmed c = true :=
    condArmed_of c u psw abort fun out => on (disarmed c out)
  refine ⟨fun other on unlatched => ?_, fun other edge unlatched => ?_, fun other on unlatched origin => ?_,
    fun other edge unlatched ranks origin => ?_, fun p x other on unlatched origin owed rail => ?_,
    fun own edge => next_atHead role (pswEdge_again safe taken top o edge own)⟩
  · have read := read fun p => { p with estop := true }
    exact ⟨_, next_atHead role rfl, read.raised (condActive_safe_always read.state (.inl rfl))
      (armed .estop read.disarmed (by decide) (by decide) on) unlatched other (.inl (by decide))⟩
  · have read := read fun p => { p with psw := true }
    obtain ⟨goes, disarms, -⟩ := read.latches (c := .pressureSwitch)
      (condActive_safe_always read.state (.inr rfl)) (openTick_pswArmed o edge) unlatched other (.inl (by decide)) false _
    exact ⟨_, next_atHead role (if_pos edge), goes, disarms⟩
  · have read := read fun p => { p with lidClosed := false }
    exact ⟨_, next_atHead role rfl, read.raised (read.active origin rfl (by decide))
      (armed .lidOpen read.disarmed (by decide) (by decide) on) unlatched other (.inl (by decide))⟩
  · have read := read fun p => { p with abort := true }
    obtain ⟨goes, -, disarms⟩ := read.latches (c := .aborted)
      (read.active origin rfl (by decide)) (openTick_abortArmed o edge) unlatched
      other (.inr ranks) _ false
    exact ⟨_, next_atHead role (if_pos edge), goes, disarms⟩
  · have read := tickRead_safeRead safe taken top p x
    have rails : (atRail x.level || atRail x.press || atRail x.temp) = true := by
      simpa [atRail, or_assoc] using rail
    refine ⟨_, exec_sampleTick p x s role, ?_⟩
    rw [headSample_safe_rail safe taken top p x owed rails]
    exact read.raised (read.active origin rfl (by decide))
      (armed .sensorRange read.disarmed (by decide) (by decide) on) unlatched other (.inl (by decide))

end Sys2Proof.Machine
end

section
/-! How a condition takes the head into SAFE (R88, R91, R106, R108, R125, R133, R143 to R149; logs 3, 9, 42): the inputs,
the timers and the line silence, and a sample with a channel at a rail. -/

namespace Sys2Proof.Machine

section
variable {c : Cause} {h : HeadState} {s u z t : State}

/-! ### The event read outside SAFE (R88; log 3) -/

/-- The head stands outside SAFE in state `h` with no response in force, its conditions armed as in `s`, once the tick or
the input of an event has been read. -/
structure OutsideRead (h : HeadState) (s u : State) : Prop where
  state : u.tsq.state = some h
  out : h ≠ .safe
  free : u.ilk.inForce = none
  quiet : u.ilk.latched = []
  disarmed : u.ilk.disarmed = s.ilk.disarmed

theorem openTick_outsideRead (o : TickOrder) (at' : s.tsq.state = some h) (out : h ≠ .safe)
    (free : s.ilk.inForce = none) (quiet : s.ilk.latched = []) : OutsideRead h s (openTick o s) := by
  cases o with
  | beforeSample p x => exact ⟨at', out, free, quiet, rfl⟩
  | afterSample => exact ⟨at', out, free, quiet, rfl⟩

theorem OutsideRead.withInput (read : OutsideRead h s u) (g : Pins → Pins) : OutsideRead h s (withInput g u) :=
  { read with }

theorem OutsideRead.armed (read : OutsideRead h s u) (psw : c ≠ .pressureSwitch) (abort : c ≠ .aborted)
    (on : c ∉ s.ilk.disarmed) : u.condArmed c = true :=
  condArmed_of c u psw abort (by rwa [read.disarmed])

/-- What a condition does that takes the head from state `h` of `u`: a TRIP, or a VENT with the pressure up, leads into
SAFE, and a VENT of a test with the pressure down completes at once (R147, R149). -/
def TakesHead (c : Cause) (h : HeadState) (u t : State) : Prop :=
  (c.isTrip = true ∨ u.vented = false → EntersSafe c h u t) ∧
  (c.isTrip = false → u.vented = true → h.inTest = true → VentedAtOnce c h u t)

/-- A condition that is active and armed takes the head (R145). -/
theorem OutsideRead.raised (read : OutsideRead h s u) (active : c.activeIn h = true) (armed : u.condArmed c = true) :
    TakesHead c h u (raise [c] u) :=
  raise_one c h u read.state read.out read.free read.quiet
    (latches_outside c h u read.state read.out read.free read.quiet active armed)

/-- An edge does so too, with its input disarmed between (R88, R145). -/
theorem OutsideRead.edge (read : OutsideRead h s u) (active : c.activeIn h = true) (armed : u.condArmed c = true)
    (a b : Bool) : TakesHead c h u
      (respond ((latchOne c u).withIlk { (latchOne c u).ilk with pswArmed := a, abortArmed := b })) :=
  respond_one c h u read.state read.out read.free read.quiet
    (latches_outside c h u read.state read.out read.free read.quiet active armed) a b

/-- The input of the event does not show in what it does, but for SEAT. -/
theorem TakesHead.of_withInput {g : Pins → Pins} (takes : TakesHead c h (withInput g z) t)
    (seat : (g z.inputs).seat = z.inputs.seat) : TakesHead c h z t := by
  obtain ⟨enters, completes⟩ := takes
  refine ⟨enters, fun vent down test => ?_⟩
  obtain ⟨free, quiet, docket, state, lid, window, outside⟩ := completes vent down test
  exact ⟨free, quiet, docket, by rw [← seat]; exact state, by rw [← seat]; exact lid, window, outside⟩

/-! ### The timers and the line silence (R26, R91, R94, R97) -/

/-- The expiry of a timer raises its condition; ahead of the sample its cause is marked too (R145; log 3). -/
theorem expiryCause_takes (o : TickOrder) (read : OutsideRead h s (openTick o s)) (active : c.activeIn h = true)
    (psw : c ≠ .pressureSwitch) (abort : c ≠ .aborted) (on : c ∉ s.ilk.disarmed) :
    TakesHead c h (openTick o s) (expiryCause o c s) ∧ (expiryCause o c s).inputs = (openTick o s).inputs := by
  cases o with
  | beforeSample p x =>
    let marked := (openTick (.beforeSample p x) s).withIlk
      { (openTick (.beforeSample p x) s).ilk with expired := some c }
    have still : OutsideRead h s marked := { read with }
    exact ⟨still.raised active (still.armed psw abort on), raise_inputs [c] marked⟩
  | afterSample => exact ⟨read.raised active (read.armed psw abort on), raise_inputs [c] s⟩

/-- An expiry named at a tick at which the count is not the length changes nothing, whatever the state (R91). -/
theorem expiry_early {k : HeadState} {count : TickCounter} {len : Nat} {a : State} (o : TickOrder)
    (runs : s.tsq.phase = some count) (early : count.at o ≠ len) :
    (if s.headIs k && s.phaseExpires o len then a else s) = s :=
  if_neg fun both => early ((phaseExpires_iff o s len runs).mp (Bool.and_eq_true_iff.mp both).2)

/-- The silence expiry of a head raises LINE_SILENCE, the indication set ahead of the tick's reading (R26). -/
theorem execSilenceExpiry_raises (o : TickOrder) (head : s.role = some .test) (runs : s.lif.silence = .running) :
    execSilenceExpiry o s = .next (raise [.lineSilence]
      (openTick o { s with lif := { s.lif with silence := .expired, lineSilent := true } })) := by
  have isHead : (s.withLif { s.lif with silence := .expired, lineSilent := true }).isHead = true :=
    (isHead_iff _).mpr head
  simp only [execSilenceExpiry, runs, beq_self_eq_true, if_true, silenceExpiry, isHead]
  rfl

end

section
variable {p : Pins} {x : Sample} {s u z t : State} {h k : HeadState}

/-! ### A sample with a channel at a rail (R125, R133) -/

/-- SENSOR_RANGE is active in a test only (Table 9-1). -/
theorem sensorRange_inTest (h : HeadState) : Cause.sensorRange.activeIn h = true → h.inTest = true := by
  cases h <;> decide

/-- Where it is not, no sample serves the ramp, the hold, the vent or a window. -/
theorem sensorRange_untested (h : HeadState) : Cause.sensorRange.activeIn h = false →
    h ∉ [.ramping, .holding, .venting] ∧ h.reads = false := by
  cases h <;> decide

/-- Some channel of the sample is at a rail. -/
def railed (x : Sample) : Bool := atRail x.level || atRail x.press || atRail x.temp

theorem railed_iff (x : Sample) :
    railed x = true ↔ atRail x.level = true ∨ atRail x.press = true ∨ atRail x.temp = true := by
  simp [railed, or_assoc]

theorem tickRead_railed : (tickRead p x s).anyRail = railed x := by
  rw [State.anyRail, (tickRead_parts p x s).2]
  rfl

theorem tickRead_pressure : (tickRead p x s).msu.pressure =
    if atRail x.press then none else some (convertPressure s.params x.press) := by
  rw [(tickRead_parts p x s).2]

/-- The tick as read outside SAFE, but for what it arms again. -/
theorem tickRead_outside (at' : s.tsq.state = some h) (free : s.ilk.inForce = none) (quiet : s.ilk.latched = []) :
    (tickRead p x s).tsq.state = some h ∧ (tickRead p x s).ilk.inForce = none ∧ (tickRead p x s).ilk.latched = [] := by
  rw [tickRead_eq p x s free]
  exact ⟨at', free, quiet⟩

/-- Out of the ramp, the hold and the vent, and at a pressure rail anywhere, the use of the pressure leaves the head where
it stands and the measurement unit as it was read (R135 to R137). -/
theorem usePressure_spares (owed : Bool)
    (left : s.msu.pressure = none ∨ s.tsq.state ∉ [some .ramping, some .holding, some .venting]) :
    (usePressure owed s).tsq.state = s.tsq.state ∧ (usePressure owed s).msu = s.msu := by
  rcases left with unread | left
  · have same : usePressure owed s = s := by simp [usePressure, unread]
    rw [same]
    exact ⟨rfl, rfl⟩
  · rw [usePressure_left owed s left]
    cases s.msu.pressure with
    | none => exact ⟨rfl, rfl⟩
    | some q => cases owed <;> exact ⟨rfl, rfl⟩

/-- SENSOR_RANGE is all that a rail sample reports, with no pressure of the hold to check. -/
theorem sampleReports_rail (rail : u.anyRail = true) (unchecked : u.headIs .holding = false ∨ u.msu.pressure = none) :
    sampleReports u = [.sensorRange] := by
  rw [sampleReports_quiet u unchecked, rail]
  rfl

/-- A condition that may not latch, raised with nothing latched, changes nothing (R145). -/
theorem raise_unlatched {c : Cause} (no : u.latches c = false) (quiet : u.ilk.latched = []) : raise [c] u = u := by
  have same : latchAll [c] u = u := latchOne_not c u no
  rw [raise, same]
  exact respond_stays u (by simp [quiet])

/-- A level or temperature rail discards the window in progress (R133). -/
theorem useWindow_rail (begun : u.windowOpen h = true) (rail : u.msu.levelRail = true ∨ u.msu.tempRail = true)
    (skipped : u.msu.window.skip = 0) (unshut : u.msu.window.shut = false) :
    useWindow h x u = withWindow u.msu.window.emptied u := by
  simp only [useWindow, skipped, unshut, begun, Nat.lt_irrefl, if_false, Bool.not_true, Bool.or_self,
    Bool.false_eq_true, Bool.or_eq_true, rail, if_true]

/-! ### The rail that is reported -/

/-- A rail sample reported from a state of a test takes the head from there into SAFE, and feeds no window. -/
theorem headSample_rail_enters (made : usePressure s.tsq.peakOwed (tickRead p x s) = u) (state : u.tsq.state = some k)
    (free : u.ilk.inForce = none) (quiet : u.ilk.latched = []) (on : .sensorRange ∉ u.ilk.disarmed)
    (reports : sampleReports u = [.sensorRange]) (tested : Cause.sensorRange.activeIn k = true) :
    EntersSafe .sensorRange k u (headSample p x s) := by
  have read : OutsideRead k u u := ⟨state, by rintro rfl; exact absurd tested (by decide), free, quiet, rfl⟩
  obtain ⟨enters, -⟩ := read.raised tested (read.armed (by decide) (by decide) on)
  have entered := enters (.inl rfl)
  have ⟨safe, _⟩ := entered
  rw [headSample_stages p x s u made, reports, windowStage_safe _ x _ safe (numberedPhase_ne_safe s)]
  exact entered

/-- What the entry to SAFE from a test reads of the state that it leaves. -/
structure LeftAlike (u z : State) : Prop where
  lid : u.tsq.lidLock = z.tsq.lidLock
  docket : u.tsq.docket = z.tsq.docket
  disarmed : u.ilk.disarmed = z.ilk.disarmed
  marks : u.ilk.marks = z.ilk.marks
  mean : holdMean u.msu = holdMean z.msu
  outside : u.outsideHead = z.outsideHead

theorem EntersSafe.of_alike {c : Cause} (enters : EntersSafe c h u t) (test : h.inTest = true) (alike : LeftAlike u z) :
    EntersSafe c h z t := by
  obtain ⟨state, phase, lid, taken, latched, disarmed, timer, marks, inside, -, outside⟩ := enters
  obtain ⟨origin, docket, window⟩ := inside test
  have stamp : u.roundStamp = z.roundStamp := (congrArg State.roundStamp alike.outside :)
  have listed : appendedAt c h u = appendedAt c h z := by
    funext y
    rw [appendedAt, appendedAt, stamp, alike.mean]
  rw [listed, alike.docket] at docket
  exact ⟨state, phase, lid.trans alike.lid, taken, latched, by rw [disarmed, alike.disarmed], timer,
    marks.trans alike.marks, fun _ => ⟨origin, docket, window⟩, fun idle => by simp [test] at idle,
    outside.trans alike.outside⟩

/-- A reading phase is entered with the lid locked (Table 6-3). -/
theorem LeftAlike.enterReading (alike : LeftAlike u z) (k : HeadState) :
    LeftAlike (enterReading k u) { z with tsq := { z.tsq with lidLock := true } } :=
  { alike with lid := rfl }

/-- The head with the tick of a rail sample read, as O41 has it: conditions whose cause is absent are armed again
(R145). -/
def railSeen (p : Pins) (x : Sample) (s : State) : State :=
  let tick := openTick (.beforeSample p x) s
  { tick with ilk := { tick.ilk with disarmed := s.ilk.disarmed.filter fun c => decide (c = .sensorRange ∨
      (c = .estop ∧ p.estop = true) ∨ (c = .lidOpen ∧ p.lidClosed = false) ∨
      (c = .lineSilence ∧ s.lif.lineSilent = true) ∨
      ((c = .fillTimeout ∨ c = .rampTimeout) ∧ s.ilk.expired = some c)) } }

theorem tickRead_alike (free : s.ilk.inForce = none) (rail : railed x = true) :
    LeftAlike (tickRead p x s) (railSeen p x s) := by
  rw [tickRead_eq p x s free]
  refine ⟨rfl, rfl, List.filter_congr fun c _ => ?_, rfl, rfl, rfl⟩
  simp only [(railed_iff x).mp rail, and_true]

section
variable (at' : s.tsq.state = some h) (free : s.ilk.inForce = none) (quiet : s.ilk.latched = [])
  (rail : railed x = true)
include at' free quiet rail

/-- From FILLING to DRAINING a rail whose sample serves nothing else takes the head into SAFE. -/
theorem headSample_rail_tested (tested : Cause.sensorRange.activeIn h = true) (on : .sensorRange ∉ s.ilk.disarmed)
    (unused : atRail x.press = true ∨ (s.tsq.peakOwed = false ∧ h ≠ .ramping ∧ h ≠ .holding ∧
      (h = .venting → s.params.ventDone ≤ convertPressure s.params x.press))) :
    EntersSafe .sensorRange h (railSeen p x s) (headSample p x s) := by
  obtain ⟨state, free', quiet'⟩ := tickRead_outside (p := p) (x := x) at' free quiet
  have params : (tickRead p x s).params = s.params := (congrArg State.params (tickRead_outsideHead p x s) :)
  have pressure := tickRead_pressure (p := p) (x := x) (s := s)
  have unread (press : atRail x.press = true) : (tickRead p x s).msu.pressure = none := by rw [pressure, if_pos press]
  have made : usePressure s.tsq.peakOwed (tickRead p x s) = tickRead p x s := by
    refine usePressure_unused _ h _ state (unused.imp unread fun ⟨owed, ramp, hold, vent⟩ => ⟨owed, ramp, hold, ?_⟩)
    intro venting q read
    rw [pressure] at read
    split at read
    · simp at read
    · rw [← Option.some.inj read, params]
      exact vent venting
  have reports : sampleReports (tickRead p x s) = [.sensorRange] := by
    refine sampleReports_rail (tickRead_railed.trans rail) (unused.symm.imp (fun ⟨_, _, hold, _⟩ => ?_) unread)
    simpa [State.headIs, state] using hold
  have enters := headSample_rail_enters made state free' quiet'
    (fun out => on ((mem_tickRead_disarmed p x s _).mp out).1) reports tested
  exact enters.of_alike (sensorRange_inTest h tested) (tickRead_alike free rail)

/-- In VENTING, with the pressure below vent_done, the head has entered SETTLING first (log 9). -/
theorem headSample_rail_vented (venting : h = .venting) (on : .sensorRange ∉ s.ilk.disarmed)
    (range : atRail x.press = false) (down : convertPressure s.params x.press < s.params.ventDone) :
    EntersSafe .sensorRange .settling
      { railSeen p x s with tsq := { (railSeen p x s).tsq with lidLock := true } } (headSample p x s) := by
  have read := tickRead_used (p := p) at' free quiet range
  have settled := read.enterReading .settling
  subst venting
  have made : usePressure s.tsq.peakOwed (tickRead p x s) = enterReading .settling (tickRead p x s) :=
    (usePressure_vent s.tsq.peakOwed read.state read.pressure).trans (if_pos (by rwa [read.params]))
  have other : otherRail x = true := by simpa [railed, range, otherRail] using rail
  have reports := (settled.reports_outside (by decide)).trans (if_pos other)
  have enters := headSample_rail_enters made settled.state settled.free settled.quiet
    (fun out => on (settled.disarmed _ out).1) reports (by decide)
  exact enters.of_alike (by decide) ((tickRead_alike free rail).enterReading .settling)

/-- A rail sample that SENSOR_RANGE does not latch from goes to its window, its pressure used by the peak at most. -/
theorem headSample_rail_unlatched (out : h ≠ .safe)
    (left : atRail x.press = true ∨ h ∉ [.ramping, .holding, .venting])
    (no : Cause.sensorRange.activeIn h = false ∨ .sensorRange ∈ s.ilk.disarmed) :
    ∃ u, headSample p x s = windowStage s.numberedPhase x u ∧ u.tsq.state = some h ∧ u.ilk.inForce = none ∧
      u.ilk.latched = [] ∧ u.msu = (tickRead p x s).msu := by
  obtain ⟨state, free', quiet'⟩ := tickRead_outside (p := p) (x := x) at' free quiet
  have unread (press : atRail x.press = true) : (tickRead p x s).msu.pressure = none := by
    rw [tickRead_pressure, if_pos press]
  have ilk := usePressure_ilk s.tsq.peakOwed (tickRead p x s)
  have rails := usePressure_anyRail s.tsq.peakOwed (tickRead p x s)
  obtain ⟨stays, msu⟩ := usePressure_spares (s := tickRead p x s) s.tsq.peakOwed
    (left.imp unread fun other => by rw [state]; simpa using other)
  generalize made : usePressure s.tsq.peakOwed (tickRead p x s) = u at ilk rails stays msu
  have reports : sampleReports u = [.sensorRange] := by
    refine sampleReports_rail (rails.trans (tickRead_railed.trans rail)) (left.symm.imp (fun other => ?_) fun press => ?_)
    · have apart : h ≠ .holding := by rintro rfl; simp at other
      simpa [State.headIs, stays, state] using apart
    · rw [msu, unread press]
  have deaf : u.latches .sensorRange = false := by
    rcases no with inactive | off
    · simp [State.latches, condActive_at _ h u (stays.trans state) out, inactive]
    · have still : Cause.sensorRange ∈ u.ilk.disarmed := by
        rw [ilk]
        exact (mem_tickRead_disarmed p x s _).mpr ⟨off, .inl ⟨rfl, rail⟩⟩
      simp [State.latches, State.condArmed, still]
  refine ⟨u, ?_, stays.trans state, by rw [ilk, free'], by rw [ilk, quiet'], msu⟩
  rw [headSample_stages p x s u made, reports, raise_unlatched deaf (by rw [ilk, quiet'])]

/-- In a state in which SENSOR_RANGE is not active a rail gives nothing (R143). -/
theorem headSample_rail_untested (out : h ≠ .safe) (untested : Cause.sensorRange.activeIn h = false) :
    let t := headSample p x s
    t.tsq.state = some h ∧ t.ilk.inForce = none ∧ t.ilk.latched = [] := by
  obtain ⟨left, unread⟩ := sensorRange_untested h untested
  obtain ⟨u, same, state, free', quiet', -⟩ := headSample_rail_unlatched (p := p) at' free quiet rail out
    (.inr left) (.inl untested)
  dsimp only
  rw [same, numberedPhase_none at' unread]
  exact ⟨state, free', quiet'⟩

/-- Where SENSOR_RANGE is not armed it discards the window in progress, and the head stays (R133). -/
theorem headSample_rail_discards {count : TickCounter} (off : .sensorRange ∈ s.ilk.disarmed)
    (channel : atRail x.level = true ∨ atRail x.temp = true)
    (phase : h = .zeroing ∨ h = .settling ∨ (h = .holding ∧ atRail x.press = true ∧ s.msu.holdExpired = true))
    (runs : s.tsq.phase = some count) (old : count.fresh = false) (skipped : s.msu.window.skip = 0)
    (unshut : s.msu.window.shut = false) :
    let t := headSample p x s
    t.tsq.state = some h ∧ t.msu.window = s.msu.window.emptied := by
  have reads : h.reads = true := by rcases phase with rfl | rfl | ⟨rfl, -⟩ <;> rfl
  have out : h ≠ .safe := by rcases phase with rfl | rfl | ⟨rfl, -⟩ <;> decide
  have left : atRail x.press = true ∨ h ∉ [.ramping, .holding, .venting] := by
    rcases phase with rfl | rfl | ⟨-, press, -⟩
    · exact .inr (by decide)
    · exact .inr (by decide)
    · exact .inl press
  obtain ⟨u, same, state, -, -, msu⟩ := headSample_rail_unlatched (p := p) at' free quiet rail out left (.inr off)
  rw [(tickRead_parts p x s).2] at msu
  have window : u.msu.window = s.msu.window := by rw [msu]
  have begun : u.windowOpen h = true := by
    rcases phase with rfl | rfl | ⟨rfl, -, expired⟩
    · rfl
    · rfl
    · have kept : u.msu.holdExpired = true := by rw [msu]; exact expired
      simp [State.windowOpen, kept]
  have discards : windowStage (some h) x u = withWindow s.msu.window.emptied u := by
    rw [← window]
    exact (if_pos ((headIs_iff u h).mpr state)).trans
      (useWindow_rail begun (by rw [msu]; exact channel) (by rwa [window]) (by rwa [window]))
  dsimp only
  rw [same, numberedPhase_some at' runs reads old, discards]
  exact ⟨state, rfl⟩

end

end

/-- Settles O41: the conditions of the inputs, of the timers and of the line silence, and a rail sample in each state. -/
theorem conditionsTakeTheHeadToSafe : Obligations.ConditionsTakeTheHeadToSafe := by
  intro o p x h s role at' out free quiet z trips vents
  have tick := openTick_outsideRead o at' out free quiet
  have tripped {i : Instr} {c : Cause} {pins : Pins} {t : State} (ran : exec i s = .next t) (read : t.inputs = pins)
      (trip : c.isTrip = true) (takes : TakesHead c h z t) : trips i c pins :=
    ⟨t, ran, takes.1 (.inl trip), read⟩
  have vented {i : Instr} {c : Cause} {pins : Pins} {t : State} (ran : exec i s = .next t) (read : t.inputs = pins)
      (vent : c.isTrip = false) (test : h.inTest = true) (takes : TakesHead c h z t) : vents i c pins :=
    ⟨fun up => ⟨t, ran, takes.1 (.inr up), read⟩, fun down => ⟨t, ran, takes.2 vent down test, read⟩⟩
  refine ⟨fun on => ?_, fun edge => ?_, fun on active => ?_, fun edge active => ?_,
    fun count on filling runs due => ?_, fun count on ramping runs due => ?_,
    fun count runs early => next_atHead role (expiry_early o runs early),
    fun count runs early => next_atHead role (expiry_early o runs early), fun on ramping runs => ?_, ?_⟩
  · have read := tick.withInput fun p => { p with estop := true }
    exact tripped (next_atHead role rfl) (raise_inputs _ _) rfl
      ((read.raised rfl (read.armed (by decide) (by decide) on)).of_withInput rfl)
  · have read := tick.withInput fun p => { p with psw := true }
    exact tripped (next_atHead role (if_pos edge)) ((respond_inputs _).trans (latchOne_inputs _ _)) rfl
      ((read.edge (c := .pressureSwitch) rfl (openTick_pswArmed o edge) false _).of_withInput rfl)
  · have read := tick.withInput fun p => { p with lidClosed := false }
    have always : ∀ h ∈ [HeadState.zeroing, .waitRamp, .ramping, .holding, .venting, .settling],
      Cause.lidOpen.activeIn h = true := by decide
    exact tripped (next_atHead role rfl) (raise_inputs _ _) rfl
      ((read.raised (always h active) (read.armed (by decide) (by decide) on)).of_withInput rfl)
  · have read := tick.withInput fun p => { p with abort := true }
    have always : ∀ h ∈ [HeadState.loading, .filling, .zeroing, .waitRamp, .ramping, .holding, .venting, .settling],
      Cause.aborted.activeIn h = true ∧ h.inTest = true := by decide
    obtain ⟨active, test⟩ := always h active
    exact vented (next_atHead role (if_pos edge)) ((respond_inputs _).trans (latchOne_inputs _ _)) rfl test
      ((read.edge (c := .aborted) active (openTick_abortArmed o edge) _ false).of_withInput rfl)
  · subst filling
    obtain ⟨takes, read⟩ := expiryCause_takes o tick (c := .fillTimeout) rfl (by decide) (by decide) on
    exact vented (next_atHead role ((expiry_taken o s at' runs).1 due)) read rfl rfl takes
  · subst ramping
    obtain ⟨takes, read⟩ := expiryCause_takes o tick (c := .rampTimeout) rfl (by decide) (by decide) on
    exact vented (next_atHead role ((expiry_taken o s at' runs).1 due)) read rfl rfl takes
  · intro silent
    subst ramping
    have read := openTick_outsideRead (s := { s with lif := { s.lif with silence := .expired, lineSilent := true } })
      o at' out free quiet
    obtain ⟨enters, completes⟩ := read.raised (c := .lineSilence) rfl (read.armed (by decide) (by decide) on)
    have ran := execSilenceExpiry_raises o role runs
    exact ⟨fun up => ⟨_, ran, enters (.inr up), raise_inputs _ _⟩,
      fun down => ⟨_, ran, completes rfl down rfl, raise_inputs _ _⟩⟩
  · intro rail q run tick present seen locked tested unused w
    have atRail_of (code : BitVec 16) : rail code ↔ atRail code = true := (atRail_iff code).symm
    have tested_iff : tested ↔ Cause.sensorRange.activeIn h = true := by
      cases h <;> simp [tested, Cause.activeIn, HeadState.fillingToDraining, HeadState.code]
    have ran : run = .next (headSample p x s) := exec_sampleTick p x s role
    have pins : (headSample p x s).inputs = p := (headSample_keepsReading p x s).inputs.trans (tickRead_inputs p x s)
    simp only [atRail_of]
    intro channels
    have some' := (railed_iff x).mpr channels
    refine ⟨fun on test spare => ⟨_, ran, ?_, pins⟩, fun on venting range down => ⟨_, ran, ?_, pins⟩,
      fun untested => ⟨_, ran, ?_⟩, fun count off channel phase runs old skipped unshut => ⟨_, ran, ?_⟩⟩
    · exact headSample_rail_tested at' free quiet some' (tested_iff.mp test) on (spare.imp_left (atRail_of _).mp)
    · exact headSample_rail_vented at' free quiet some' venting on (Bool.eq_false_iff.mpr range) down
    · exact headSample_rail_untested at' free quiet some' out (Bool.eq_false_iff.mpr (mt tested_iff.mpr untested))
    · exact headSample_rail_discards at' free quiet some' off channel phase runs old skipped unshut

end Sys2Proof.Machine
end

section
/-! The disposal unit seen from outside its own commands (R38, R53, R159 to R162, R165, R175): the few ways in which the
line, the ticks, the stops and the resets may change it, and with them one induction over the commands for whatever is said
of the unit alone. -/

namespace Sys2Proof.Machine

/-- Manufacturer and serial of a queued docket (R159). -/
def Arrival.identity (a : Arrival) : Text × Text := (a.docket.mfr, a.docket.serial)

/-- The unit `v` has the cylinder in work, the waiting lines and the queued identities of `u`. -/
structure DsuStands (u v : Dsu) : Prop where
  work : v.work = u.work
  waiters : v.recWaiters = u.recWaiters
  queue : v.arrival.map Arrival.identity = u.arrival.map Arrival.identity

/-- What is said of the disposal unit holds at a reset, and every change that a command other than the unit's own makes
keeps it. -/
structure KeptFromOutside (P : Dsu → Prop) : Prop where
  reset : P {}
  stands {u v : Dsu} : DsuStands u v → P u → P v
  joins {u : Dsu} {d : Docket} : u.fresh d = true → P u → P { u with arrival := u.arrival ++ [{ docket := d }] }
  missing {s : State} (i : Nat) : P s.dsu → P (finishMissing i s).dsu
  carded {s : State} (a : Addr) (c : Card) : P s.dsu → P (produceLine (cardLine a c) s).dsu
  stopped {s : State} : P s.dsu → P (disposeStop s).dsu
  resumed {s : State} : P s.dsu → P (disposeResume s).dsu

/-- A state whose disposal unit meets `P`. -/
def DsuMeets (P : Dsu → Prop) (s : State) : Prop := P s.dsu

section
variable {P : Dsu → Prop} {s : State}

theorem DsuMeets.of_dsu {t : State} (h : DsuMeets P s) (same : t.dsu = s.dsu) : DsuMeets P t := by
  unfold DsuMeets
  rw [same]
  exact h

theorem DsuMeets.of_outsideHead {t : State} (h : DsuMeets P s) (same : t.outsideHead = s.outsideHead) : DsuMeets P t :=
  h.of_dsu (congrArg State.dsu same :)

theorem DsuMeets.of_outsideIntake {t : State} (h : DsuMeets P s) (same : t.outsideIntake = s.outsideIntake) :
    DsuMeets P t :=
  h.of_dsu (congrArg State.dsu same :)

/-- Both ways of a choice. -/
theorem ite_dsuMeets {c : Prop} [Decidable c] {a b : State} (yes : DsuMeets P a) (no : DsuMeets P b) :
    DsuMeets P (if c then a else b) := by
  split
  · exact yes
  · exact no

/-! ### Operations that leave the unit alone -/

theorem queueMsg_dsuMeets (m : TxMsg) (h : DsuMeets P s) : DsuMeets P (queueMsg m s) :=
  h.of_outsideIntake (queueMsg_outsideIntake m s)

theorem enterIdle_dsuMeets (h : DsuMeets P s) : DsuMeets P (enterIdle s) := h.of_outsideHead (enterIdle_outsideHead s)

theorem enterUnloading_dsuMeets (h : DsuMeets P s) : DsuMeets P (enterUnloading s) :=
  h.of_outsideHead (enterUnloading_outsideHead s)

theorem intakeStop_dsuMeets (h : DsuMeets P s) : DsuMeets P (intakeStop s) :=
  h.of_outsideIntake (intakeStop_outsideIntake s)

theorem refreshShare_dsuMeets (h : DsuMeets P s) : DsuMeets P (refreshShare s) := ite_dsuMeets h h

theorem contend_dsuMeets (k : Key) (h : DsuMeets P s) : DsuMeets P (contend k s) := ite_dsuMeets h h

theorem enterRound_dsuMeets (read : BitVec 4) (h : DsuMeets P s) : DsuMeets P (enterRound read s) := ite_dsuMeets h h

theorem execPost_dsuMeets (read : PostWord) (h : DsuMeets P s) : OutMeets (DsuMeets P) (execPost read s) := by
  unfold execPost
  split
  · exact outMeets_ite (fun _ => ite_dsuMeets h h) h
  · exact outMeets_next h

theorem silenceExpiry_dsuMeets (o : TickOrder) (h : DsuMeets P s) : DsuMeets P (silenceExpiry o s) := by
  have told : DsuMeets P (s.withLif { s.lif with silence := .expired, lineSilent := true }) := h
  exact ite_dsuMeets (told.of_outsideHead (by rw [raise_outsideHead, openTick_outsideHead])) told

/-- A frame received keeps what its taking keeps (R42). -/
theorem receive_dsuMeets (k : MsgKind) (f : Frame) {take : State → State}
    (keeps : ∀ u, DsuMeets P u → DsuMeets P (take u)) (h : DsuMeets P s) : DsuMeets P (receive k f take s) :=
  ite_dsuMeets (ite_dsuMeets h (ite_dsuMeets (keeps _ h) h)) h

theorem offerFor_dsuMeets (f : Frame) (read : Byte) (h : DsuMeets P s) : DsuMeets P (offerFor f read s) := by
  unfold offerFor
  refine ite_dsuMeets ?_ h
  split
  · exact ite_dsuMeets (ite_dsuMeets h h) h
  · exact h

theorem callFor_dsuMeets (f : Frame) (read : Byte) (h : DsuMeets P s) : DsuMeets P (callFor f read s) :=
  ite_dsuMeets (ite_dsuMeets (enterUnloading_dsuMeets (queueMsg_dsuMeets _ (s := State.withTsq _ _) h)) h) h

theorem cardFor_dsuMeets (f : Frame) (h : DsuMeets P s) : DsuMeets P (cardFor f s) := by
  unfold cardFor
  refine ite_dsuMeets ?_ h
  split
  · exact refreshShare_dsuMeets (s := withRound _ _) h
  · exact h

theorem noteFor_dsuMeets (f : Frame) (h : DsuMeets P s) : DsuMeets P (noteFor f s) := by
  unfold noteFor
  refine ite_dsuMeets ?_ h
  split <;> exact h

theorem startRole_dsuMeets (r : Role) (seat infeedClear : Bool) (h : DsuMeets P s) :
    DsuMeets P (startRole r seat infeedClear s) := by
  cases r with
  | inspect => exact ite_dsuMeets h h
  | test => exact enterIdle_dsuMeets (s := State.withAdm _ _) h
  | dispose => exact h

theorem execProfileReadComplete_dsuMeets (im : List Byte) (seat infeedClear : Bool) (h : DsuMeets P s) :
    OutMeets (DsuMeets P) (execProfileReadComplete im seat infeedClear s) := by
  have checked (r : Role) (u : State) (hu : DsuMeets P u) : DsuMeets P (checkImage r im seat infeedClear u) := by
    refine ite_dsuMeets hu ?_
    split
    · exact hu
    · exact startRole_dsuMeets r seat infeedClear (s := releaseLine _) hu
  unfold execProfileReadComplete
  split
  · exact outMeets_next (ite_dsuMeets h (ite_dsuMeets h (ite_dsuMeets h
      (ite_dsuMeets (checked _ (State.withLoader _ _) h) (ite_dsuMeets h h)))))
  · exact outMeets_next h

/-! ### The call, the arrival timers, the register of the link -/

namespace KeptFromOutside
variable (K : KeptFromOutside P)
include K

/-- A change of the unit under which its work, its waiting lines and its queued identities stand. -/
theorem keeps {t : State} (h : DsuMeets P s) (stands : DsuStands s.dsu t.dsu) : DsuMeets P t := K.stands stands h

theorem withCall (f : Call → Option Call) (h : DsuMeets P s) : DsuMeets P (withCall f s) := K.keeps h ⟨rfl, rfl, rfl⟩

theorem unaccepted (m : TxMsg) (h : DsuMeets P s) : DsuMeets P (unaccepted m s) := by
  unfold Machine.unaccepted unacceptedEffect
  split
  · exact h
  · exact K.withCall _ (s := countUnaccepted s) h
  · exact h

theorem execMessageSend (read : List Byte) (h : DsuMeets P s) : OutMeets (DsuMeets P) (execMessageSend read s) := by
  unfold Machine.execMessageSend
  split
  · exact outMeets_ite (fun _ => ite_dsuMeets h (ite_dsuMeets (K.unaccepted _ (s := withRound _ s) h) h)) h
  · exact outMeets_next h

theorem readAccept (read : Byte) (m : TxMsg) (h : DsuMeets P s) : DsuMeets P (readAccept read m s) := by
  unfold Machine.readAccept
  split
  · show DsuMeets P (acceptedEffect _ _ _)
    cases m.kind with
    | docketReturn =>
      exact ite_dsuMeets (ite_dsuMeets (enterIdle_dsuMeets (s := State.withMsu _ _) h) h) (ite_dsuMeets h h)
    | releaseCall => exact K.withCall _ (s := removeContender s) h
    | _ => exact h
  · exact K.unaccepted m h

theorem execAcceptFieldRead (read : Byte) (h : DsuMeets P s) :
    OutMeets (DsuMeets P) (execAcceptFieldRead read s) := by
  unfold Machine.execAcceptFieldRead
  split
  · exact outMeets_ite (fun _ => K.readAccept read _ h) h
  · exact outMeets_next h

/-- A message dropped leaves the dockets where they are (R48). -/
theorem dropMessage (h : DsuMeets P s) : DsuMeets P (dropMessage s) := by
  obtain ⟨-, work, arrival, -, waiters⟩ := dropMessage_keepsDockets s
  exact K.keeps h ⟨work, waiters, by rw [arrival]⟩

/-- A tick moves the arrival timers alone (R162). -/
theorem execSampleTick (p : Pins) (x : Sample) (h : DsuMeets P s) : OutMeets (DsuMeets P) (execSampleTick p x s) := by
  unfold Machine.execSampleTick
  split
  · exact outMeets_next (h.of_outsideHead (headSample_outsideHead p x s))
  · exact outMeets_next (K.keeps h ⟨rfl, rfl, (List.map_map ..).trans rfl⟩)
  · exact outMeets_next h
  · exact outMeets_next h

/-- The reply of an exchange finds the unit with another register, word and sequence, and is judged there (R169, R170; a
stopped one is not judged, log 7). -/
theorem exchange (cmd : BitVec 24) (next : Nat) (r : LinkReply) {f : Except Cause (BitVec 24) → State → State}
    (replied : ∀ e u, DsuStands s.dsu u.dsu → DsuMeets P u → DsuMeets P (f e u)) (h : DsuMeets P s) :
    DsuMeets P (exchange cmd next r f s) := by
  have answered (w : BitVec 24) (b : Bool) : DsuMeets P (Machine.exchange cmd next (.word w b) f s) := by
    cases fault : replyFault cmd w b with
    | none =>
      rw [exchange_good _ _ _ _ _ _ fault]
      exact replied _ _ ⟨rfl, rfl, rfl⟩ (K.keeps h ⟨rfl, rfl, rfl⟩)
    | some c =>
      rw [exchange_bad _ _ _ _ _ _ c fault]
      exact replied _ _ ⟨rfl, rfl, rfl⟩ (K.keeps h ⟨rfl, rfl, rfl⟩)
  cases r with
  | silent => exact answered cmd true
  | word w b => exact answered w b
  | stopped => exact K.keeps h ⟨rfl, rfl, rfl⟩

/-- The call timer's expiry changes the call and its message alone (R165). -/
theorem callExpiry (h : DsuMeets P s) : DsuMeets P (callExpiry s) := by
  unfold Machine.callExpiry
  split
  · exact ite_dsuMeets (K.keeps h ⟨rfl, rfl, rfl⟩) h
  · exact h

/-! ### Dockets that come in, and record lines of cards -/

/-- A direct docket joins the queue, of an identity new to it (R160). -/
theorem directFor (f : Frame) (read : Byte) (h : DsuMeets P s) : DsuMeets P (directFor f read s) := by
  unfold Machine.directFor
  refine ite_dsuMeets ?_ h
  split
  · split
    · rename_i free
      exact ite_dsuMeets (K.joins (Bool.and_eq_true .. ▸ free).2 h) h
    · exact h
  · exact h

/-- So does a return, which may be finished as MISSING at once (R161). -/
theorem returnFor (f : Frame) (read : Byte) (h : DsuMeets P s) : DsuMeets P (returnFor f read s) := by
  unfold Machine.returnFor
  refine ite_dsuMeets ?_ h
  split
  · split
    · rename_i d _ due
      have ended : P { s.dsu with call := none } := K.stands (u := s.dsu) ⟨rfl, rfl, rfl⟩ h
      have queued (r : Round) : DsuMeets P (addArrival d ((withRound r s).withDsu { s.dsu with call := none })) :=
        K.joins (u := { s.dsu with call := none }) (Bool.and_eq_true .. ▸ due).2 ended
      exact ite_dsuMeets (ite_dsuMeets (K.missing _ (queued _)) (queued _)) h
    · exact h
  · exact h

theorem cardRecord (h : DsuMeets P s) : DsuMeets P (cardRecord s) := by
  unfold Machine.cardRecord
  split
  · split
    · exact K.carded _ _ h
    · exact h
  · exact h

/-- A call made reserves a place and changes no docket (R164). -/
theorem callDecision (h : DsuMeets P s) : DsuMeets P (callDecision s) := by
  unfold Machine.callDecision
  split
  · exact ite_dsuMeets (queueMsg_dsuMeets _ (s := s.withDsu _) (K.keeps h ⟨rfl, rfl, rfl⟩)) h
  · exact h

theorem roleStep (r : Role) (h : DsuMeets P s) : DsuMeets P (roleStep r s) := by
  refine ite_dsuMeets h ?_
  cases r with
  | inspect =>
    exact (h.of_outsideIntake (offerDecision_outsideIntake s)).of_outsideIntake (directDecision_outsideIntake _)
  | test => exact ite_dsuMeets h h
  | dispose => exact K.callDecision (K.cardRecord h)

/-- ROLE_CONFLICT sets the outputs at rest (R38). -/
theorem conflictStep (r : Role) (h : DsuMeets P s) : DsuMeets P (conflictStep r s) := by
  refine ite_dsuMeets ?_ h
  cases r with
  | dispose => exact K.keeps h ⟨rfl, rfl, rfl⟩
  | _ => exact h

theorem completeRound (r : Role) (w : PostWord) (posts : List PostWord) (cell263 : Bool) (h : DsuMeets P s) :
    DsuMeets P (completeRound r w posts cell263 s) := by
  obtain ⟨q, v, carded⟩ := cardStep_frame r s.pvt (roundTabled w posts cell263 s)
  have tabled : DsuMeets P (roundTabled w posts cell263 s) := K.dropMessage h
  have checked := K.conflictStep r (tabled.of_dsu (congrArg State.dsu carded :))
  obtain ⟨x, a, counted⟩ := counted_frame (Machine.conflictStep r (roundCarded r w posts cell263 s))
  have ready : DsuMeets P (roundCounted r w posts cell263 s) := checked.of_dsu (congrArg State.dsu counted :)
  obtain ⟨l, ended⟩ := endRound_frame (Machine.roleStep r (roundCounted r w posts cell263 s))
  exact (K.roleStep r ready).of_dsu (congrArg State.dsu ended :)

theorem execRoundEnd (posts : List PostWord) (cell263 : Bool) (h : DsuMeets P s) :
    OutMeets (DsuMeets P) (execRoundEnd posts cell263 s) := by
  unfold Machine.execRoundEnd
  split
  · exact outMeets_ite (fun _ => K.completeRound _ _ _ _ h) h
  · exact outMeets_next h

/-! ### Stops -/

theorem execStopReported (h : DsuMeets P s) : OutMeets (DsuMeets P) (execStopReported s) := by
  have acted (r : Role) : DsuMeets P (stopReported r s) := by
    refine ite_dsuMeets h ?_
    cases r with
    | inspect => exact intakeStop_dsuMeets (s := State.withIlk _ _) h
    | test => exact h
    | dispose => exact K.stopped (s := State.withIlk _ _) h
  unfold Machine.execStopReported
  split
  · exact outMeets_next h
  · exact outMeets_ite (fun _ => h) (acted _)
  · exact outMeets_next h

theorem execStopEnded (h : DsuMeets P s) : OutMeets (DsuMeets P) (execStopEnded s) := by
  have acted (r : Role) : DsuMeets P (stopEnded r s) := by
    refine ite_dsuMeets h ?_
    cases r with
    | inspect => exact ite_dsuMeets h h
    | test => exact h
    | dispose => exact K.resumed (s := State.withIlk _ _) h
  unfold Machine.execStopEnded
  split
  · exact outMeets_next h
  · exact outMeets_ite (fun _ => acted _) h
  · exact outMeets_next h

/-! ### The commands -/

/-- Every command keeps what is said of the unit, when the unit's own do. -/
theorem exec (own : ∀ i s, disposalCommand i = true → DsuMeets P s → OutMeets (DsuMeets P) (exec i s)) (i : Instr)
    (h : DsuMeets P s) : OutMeets (DsuMeets P) (exec i s) := by
  cases i with
  | powerOnReset => exact outMeets_next K.reset
  | pinReset => exact outMeets_ite (fun _ => h) K.reset
  | resetRelease a r high => exact outMeets_ite (fun _ => ite_dsuMeets h h) h
  | profileReadComplete im seat infeedClear => exact execProfileReadComplete_dsuMeets im seat infeedClear h
  | idleSpan cells => exact outMeets_ite (fun _ => h) h
  | callMade read => exact outMeets_ite (fun _ => enterRound_dsuMeets read h) h
  | callJoined read => exact outMeets_ite (fun _ => enterRound_dsuMeets read h) h
  | post read => exact execPost_dsuMeets read h
  | incompleteRoundEnd => exact outMeets_ite (fun _ => h) h
  | contention read => exact outMeets_ite (fun _ => contend_dsuMeets read h) h
  | messageSend read => exact K.execMessageSend read h
  | acceptFieldRead read => exact K.execAcceptFieldRead read h
  | messageDropped => exact outMeets_next (K.dropMessage h)
  | docketOffer f read => exact outMeets_next (receive_dsuMeets _ f (fun _ hu => offerFor_dsuMeets f read hu) h)
  | releaseCall f read => exact outMeets_next (receive_dsuMeets _ f (fun _ hu => callFor_dsuMeets f read hu) h)
  | docketDirect f read => exact outMeets_next (receive_dsuMeets _ f (fun _ hu => K.directFor f read hu) h)
  | docketReturn f read => exact outMeets_next (receive_dsuMeets _ f (fun _ hu => K.returnFor f read hu) h)
  | stationCard f => exact outMeets_next (receive_dsuMeets _ f (fun _ hu => cardFor_dsuMeets f hu) h)
  | verdictNote f => exact outMeets_next (receive_dsuMeets _ f (fun _ hu => noteFor_dsuMeets f hu) h)
  | roundEnd posts cell263 => exact K.execRoundEnd posts cell263 h
  | pacingExpiry => exact outMeets_next h
  | keepAliveExpiry => exact outMeets_next h
  | silenceExpiry o => exact outMeets_ite (fun _ => silenceExpiry_dsuMeets o h) h
  | sampleTick pins x => exact K.execSampleTick pins x h
  | stopReported => exact K.execStopReported h
  | stopEnded => exact K.execStopEnded h
  | lampRepeat => exact outMeets_ite (fun _ => h) h
  | responseComplete | estop | psw | abort | lidOpen | seatActive | lidClosed | fillComplete | loadTimeout | fillTimeout
  | rampTimeout | holdTimerExpiry | drainTimerExpiry | urgentFlagSet | unloadComplete | unloadTimeout | clearEdge =>
    exact (headEvent_frame s _ rfl).mono fun _ => h.of_outsideHead
  | infeedClear | readerLine | period | mass | find | close | cancel | clearEntry | unknownKeyword | docketJoin | pulseEnd
  | terminalReplySent => exact (intakeCommand_frame s _ rfl).mono fun _ => h.of_outsideIntake
  | markReaderLine | linkClear | linkLoad | linkQuery | linkStrike | strikeTimeout | punchDone | punchTimeout
  | punchPulseEnd | laneReleaseEnd | disposeClear | arrivalTimeout | callTimeout | recordLineSent => exact own _ s rfl h

/-- So does the step. -/
theorem step (own : ∀ i s, disposalCommand i = true → DsuMeets P s → OutMeets (DsuMeets P) (Machine.exec i s))
    {s t : State} (h : P s.dsu) (ran : step s = .next t) : P t.dsu :=
  step_meets (P := DsuMeets P) (fun _ _ hu => hu) (fun i _ hu => K.exec own i hu) h ran

end KeptFromOutside

end

end Sys2Proof.Machine
end

section
/-! The identities in the arrival queue stay distinct (R159): a docket joins with a new identity alone, one that is marked
MISSING keeps its own, and every other change takes dockets out of the queue. -/

namespace Sys2Proof.Machine

/-- No two dockets of the arrival queue have one identity (R159). -/
def Dsu.IdentitiesDistinct (u : Dsu) : Prop := (u.arrival.map Arrival.identity).Nodup

theorem arrivalDistinct_iff (s : State) : ArrivalDistinct s ↔ DsuMeets Dsu.IdentitiesDistinct s := by
  unfold ArrivalDistinct DsuMeets Dsu.IdentitiesDistinct List.Nodup
  simp only [List.pairwise_map, Arrival.identity, ne_eq, Prod.mk.injEq]

theorem Docket.sameIdentity_iff (d : Docket) (m n : Text) : d.sameIdentity m n = true ↔ d.mfr = m ∧ d.serial = n := by
  simp [Docket.sameIdentity]

/-- A docket is fresh when no queued one has its identity (R159). -/
theorem Dsu.fresh_iff (u : Dsu) (d : Docket) :
    u.fresh d = true ↔ (d.mfr, d.serial) ∉ u.arrival.map Arrival.identity := by
  simp [Dsu.fresh, Arrival.identity, Docket.sameIdentity]

/-- Marked MISSING, a docket keeps its identity (R162). -/
theorem Arrival.lost_identity (a : Arrival) : a.lost.identity = a.identity := rfl

/-- So the queue with a docket marked MISSING has the identities that it had. -/
theorem identities_set_lost (q : List Arrival) (i : Nat) (a : Arrival) (at' : q[i]? = some a) :
    (q.set i a.lost).map Arrival.identity = q.map Arrival.identity := by
  refine List.ext_getElem? fun j => ?_
  simp only [List.getElem?_map, List.getElem?_set]
  split
  · rename_i same
    subst same
    rw [at']
    split
    · rfl
    · rename_i out
      rw [List.getElem?_eq_none (Nat.not_lt.mp out)] at at'
      cases at'
  · rfl

section
variable {s : State}

/-- Dockets that leave the queue leave the others distinct. -/
theorem DsuMeets.fewer {t : State} (h : DsuMeets Dsu.IdentitiesDistinct s)
    (sub : t.dsu.arrival.Sublist s.dsu.arrival) : DsuMeets Dsu.IdentitiesDistinct t :=
  List.Nodup.sublist (sub.map _) h

/-! ### Record lines -/

/-- A note changes the transmit queue alone (R54). -/
theorem queueNote_dsu (d : Docket) (s : State) : (queueNote d s).dsu = s.dsu := by
  unfold queueNote queueMsg
  split <;> rfl

/-- A record line takes at most its own docket out of the queue (R178). -/
theorem finishLine_arrival (w : Waiter) (s : State) : (finishLine w s).dsu.arrival.Sublist s.dsu.arrival := by
  unfold finishLine
  split
  · rw [queueNote_dsu]
    exact List.Sublist.refl _
  · rw [queueNote_dsu]
    exact List.eraseP_sublist
  · exact List.Sublist.refl _

theorem produceLine_arrival (w : Waiter) (s : State) : (produceLine w s).dsu.arrival.Sublist s.dsu.arrival := by
  unfold produceLine
  split
  · exact finishLine_arrival w _
  · exact List.Sublist.refl _

theorem produceLine_distinct (w : Waiter) (h : DsuMeets Dsu.IdentitiesDistinct s) :
    DsuMeets Dsu.IdentitiesDistinct (produceLine w s) := h.fewer (produceLine_arrival w s)

theorem lineSent_distinct (h : DsuMeets Dsu.IdentitiesDistinct s) :
    DsuMeets Dsu.IdentitiesDistinct (lineSent s) := by
  unfold lineSent
  split
  · exact h
  · dsimp only
    split
    · exact h
    · exact h.fewer (finishLine_arrival _ _)

theorem settle_distinct (disp : Disposition) (c : Option Cause) (lane : BitVec 2)
    (h : DsuMeets Dsu.IdentitiesDistinct s) : DsuMeets Dsu.IdentitiesDistinct (settle disp c lane s) := by
  unfold settle
  split
  · exact h.fewer (produceLine_arrival _ _)
  · exact h

theorem finishMissing_distinct (i : Nat) (h : DsuMeets Dsu.IdentitiesDistinct s) :
    DsuMeets Dsu.IdentitiesDistinct (finishMissing i s) := by
  unfold finishMissing
  split
  · rename_i a at'
    refine produceLine_distinct _ ?_
    show List.Nodup _
    rw [State.withDsu_dsu, identities_set_lost _ i a at']
    exact h
  · exact h

/-! ### Stops, and what comes from outside -/

theorem disposeStop_distinct (h : DsuMeets Dsu.IdentitiesDistinct s) :
    DsuMeets Dsu.IdentitiesDistinct (disposeStop s) := by
  unfold disposeStop
  dsimp only
  split
  · split
    · exact settle_distinct _ _ _ (s := s.withDsu _) h
    · exact h
    · exact h
    · exact h
  · exact h

theorem identitiesDistinct_fromOutside : KeptFromOutside Dsu.IdentitiesDistinct where
  reset := List.nodup_nil
  stands := fun stands h => (congrArg List.Nodup stands.queue).mpr h
  joins := fun {u d} new h => by
    have other := (u.fresh_iff d).mp new
    show (List.map _ (u.arrival ++ [_])).Nodup
    rw [List.map_append]
    refine List.nodup_append.mpr ⟨h, List.nodup_singleton _, ?_⟩
    intro x hx y hy same
    rw [List.map_singleton, List.mem_singleton] at hy
    subst same hy
    exact other hx
  missing := fun i h => finishMissing_distinct i h
  carded := fun a c h => produceLine_distinct (cardLine a c) h
  stopped := disposeStop_distinct
  resumed := fun {s} h => ite_dsuMeets (P := Dsu.IdentitiesDistinct) h (ite_dsuMeets h h)

/-! ### The commands of the unit -/

theorem markFault_distinct (c : Cause) (h : DsuMeets Dsu.IdentitiesDistinct s) :
    DsuMeets Dsu.IdentitiesDistinct (markFault c s) := settle_distinct .held (some c) laneHold (s := s.withDsu _) h

/-- An exchange of the marking sequence: a fault abandons the sequence (R170, R172). -/
theorem markExchange_distinct (cmd : BitVec 24) (next : Nat) (r : LinkReply) {good : BitVec 24 → State → State}
    (went : ∀ w u, DsuMeets Dsu.IdentitiesDistinct u → DsuMeets Dsu.IdentitiesDistinct (good w u))
    (h : DsuMeets Dsu.IdentitiesDistinct s) : DsuMeets Dsu.IdentitiesDistinct (exchange cmd next r (onLink good) s) := by
  refine identitiesDistinct_fromOutside.exchange _ _ _ (fun e u _ hu => ?_) h
  cases e with
  | error c => exact markFault_distinct c hu
  | ok w => exact went w u hu

theorem linkLoad_distinct (r : LinkReply) (h : DsuMeets Dsu.IdentitiesDistinct s) :
    DsuMeets Dsu.IdentitiesDistinct (linkLoad r s) := by
  unfold linkLoad
  split
  · exact markExchange_distinct _ _ _ (fun _ _ hu => hu) h
  · exact h

theorem linkQuery_distinct (r : LinkReply) (h : DsuMeets Dsu.IdentitiesDistinct s) :
    DsuMeets Dsu.IdentitiesDistinct (linkQuery r s) := by
  have query (w : BitVec 24) (u : State) (hu : DsuMeets Dsu.IdentitiesDistinct u) :
      DsuMeets Dsu.IdentitiesDistinct (queryReply w u) := ite_dsuMeets hu (markFault_distinct _ hu)
  have poll (w : BitVec 24) (u : State) (hu : DsuMeets Dsu.IdentitiesDistinct u) :
      DsuMeets Dsu.IdentitiesDistinct (pollReply w u) :=
    ite_dsuMeets (ite_dsuMeets (settle_distinct _ _ _ (s := u.withDsu _) hu) (markFault_distinct _ hu)) hu
  exact ite_dsuMeets (markExchange_distinct _ _ _ query h) (ite_dsuMeets (markExchange_distinct _ _ _ poll h) h)

theorem beginAction_distinct (d : Docket) (h : DsuMeets Dsu.IdentitiesDistinct s) :
    DsuMeets Dsu.IdentitiesDistinct (beginAction d s) := by
  unfold beginAction
  split
  · split
    · exact h
    · exact h
    · exact settle_distinct _ _ _ h
    · exact h
  · exact h
  · exact settle_distinct _ _ _ h
  · exact settle_distinct _ _ _ h
  · exact settle_distinct _ _ _ h
  · exact h

/-- The docket whose cylinder stands at the marking station leaves the queue (R166). -/
theorem identityRead_distinct (m n : Text) (h : DsuMeets Dsu.IdentitiesDistinct s) :
    DsuMeets Dsu.IdentitiesDistinct (identityRead m n s) := by
  unfold identityRead
  split
  · exact beginAction_distinct _ (s := putWork _ _ _) (h.fewer List.eraseP_sublist)
  · exact produceLine_distinct _ (s := putWork _ _ _) h

theorem markRead_distinct (l : PortLine) (h : DsuMeets Dsu.IdentitiesDistinct s) :
    DsuMeets Dsu.IdentitiesDistinct (markRead l s) := by
  unfold markRead
  refine ite_dsuMeets (ite_dsuMeets ?_ h) h
  split
  · exact identityRead_distinct _ _ (s := s.withPorts _) h
  · exact h

theorem laneEnd_distinct (h : DsuMeets Dsu.IdentitiesDistinct s) :
    DsuMeets Dsu.IdentitiesDistinct (laneEnd s) := by
  unfold laneEnd
  split
  · refine ite_dsuMeets ?_ h
    split <;> exact h
  · exact h

theorem panelClear_distinct (r : LinkReply) (h : DsuMeets Dsu.IdentitiesDistinct s) :
    DsuMeets Dsu.IdentitiesDistinct (panelClear r s) := by
  refine ite_dsuMeets (ite_dsuMeets (identitiesDistinct_fromOutside.exchange _ _ _ (fun e u _ hu => ?_)
    (s := State.withDsu _ _) h) h) h
  cases e with
  | error c => exact hu
  | ok w => exact ite_dsuMeets hu hu

/-- The commands of the disposal unit keep the identities distinct. -/
theorem disposalCommand_distinct (i : Instr) (s : State) (own : disposalCommand i = true)
    (h : DsuMeets Dsu.IdentitiesDistinct s) : OutMeets (DsuMeets Dsu.IdentitiesDistinct) (exec i s) := by
  cases i with
  | markReaderLine l => exact outMeets_ite (fun _ => markRead_distinct l h) h
  | linkClear r => exact outMeets_ite (fun _ => ite_dsuMeets (markExchange_distinct _ _ _ (fun _ _ hu => hu) h) h) h
  | linkLoad r => exact outMeets_ite (fun _ => linkLoad_distinct r h) h
  | linkQuery r => exact outMeets_ite (fun _ => linkQuery_distinct r h) h
  | linkStrike r =>
    exact outMeets_ite (fun _ => ite_dsuMeets
      (markExchange_distinct _ _ _ (fun _ _ hu => hu) (s := s.withDsu _) h) h) h
  | strikeTimeout => exact outMeets_ite (fun _ => ite_dsuMeets (markFault_distinct _ h) h) h
  | punchDone => exact outMeets_ite (fun _ => ite_dsuMeets (settle_distinct _ _ _ (s := s.withDsu _) h) h) h
  | punchTimeout => exact outMeets_ite (fun _ => ite_dsuMeets h h) h
  | punchPulseEnd => exact outMeets_ite (fun _ => h) h
  | laneReleaseEnd => exact outMeets_ite (fun _ => laneEnd_distinct h) h
  | disposeClear r => exact outMeets_ite (fun _ => panelClear_distinct r h) h
  | arrivalTimeout i => exact outMeets_ite (fun _ => finishMissing_distinct i h) h
  | callTimeout => exact outMeets_ite (fun _ => identitiesDistinct_fromOutside.callExpiry h) h
  | recordLineSent cts =>
    exact outMeets_ite (fun _ => ite_dsuMeets (lineSent_distinct (s := s.withPorts _) h) h) h
  | _ => exact absurd own Bool.false_ne_true

end

/-- Settles O7: a docket joins the arrival queue with a new identity alone, and no other command adds one. -/
theorem arrivalIdentitiesKept : Obligations.ArrivalIdentitiesKept := by
  intro s t h ran
  rw [arrivalDistinct_iff] at h ⊢
  exact identitiesDistinct_fromOutside.step disposalCommand_distinct h ran

end Sys2Proof.Machine
end

section
/-! The marking sequence runs only for a docket that has passed (R167), as long as a waiting line of the work slot stands for
a cylinder in its lane (R168, R176): that line is what may empty the slot or write in it while the sequence runs. -/

namespace Sys2Proof.Machine

/-! ### The work slot and its waiting line -/

/-- The docket is for test, with the verdict PASS (R167). -/
def WorkItem.Passed (i : WorkItem) : Prop :=
  ∃ d t, i = .docket d ∧ d.intent = some .test ∧ d.test = some t ∧ t.verdict = .pass

/-- The lane movement is made, owed or over (R168). -/
def ActionPhase.atLane : ActionPhase → Bool
  | .lane | .laneOwed | .gone => true
  | _ => false

/-- The docket of the slot is kept while its line waits: its cylinder is on its way or has left (R168). -/
def Work.KeepsDocket (w : Work) : Prop := (∃ d, w.item = .docket d) ∧ w.phase.atLane = true

/-- `MarksPassedOnly`, said of the cylinder that stands in the work slot. -/
structure Dsu.SlotSound (u : Dsu) : Prop where
  passed : ∀ w m, u.work = some w → w.phase = .marking m → w.item.Passed
  one : u.workLines.length ≤ 1
  kept : u.workLines ≠ [] → ∃ w, u.work = some w ∧ w.KeepsDocket

theorem Dsu.inPhase_iff (u : Dsu) (p : ActionPhase) : u.inPhase p = true ↔ ∃ w, u.work = some w ∧ w.phase = p := by
  unfold Dsu.inPhase
  cases u.work <;> simp

theorem Dsu.workDocket_iff (u : Dsu) (d : Docket) :
    u.workDocket = some d ↔ ∃ w, u.work = some w ∧ w.item = .docket d := by
  unfold Dsu.workDocket
  rcases u.work with _ | ⟨i, p⟩
  · simp
  · cases i <;> simp

theorem ActionPhase.atLane_iff (p : ActionPhase) : p.atLane = true ↔ p = .lane ∨ p = .laneOwed ∨ p = .gone := by
  cases p <;> simp [ActionPhase.atLane]

theorem Dsu.workPassed_iff (u : Dsu) : u.workPassed ↔ ∃ w, u.work = some w ∧ w.item.Passed := by
  unfold Dsu.workPassed WorkItem.Passed
  simp only [Dsu.workDocket_iff]
  constructor
  · rintro ⟨d, t, ⟨w, work, item⟩, verdict⟩
    exact ⟨w, work, d, t, item, verdict⟩
  · rintro ⟨w, work, d, t, item, verdict⟩
    exact ⟨d, t, ⟨w, work, item⟩, verdict⟩

theorem marksPassedOnly_iff (s : State) : MarksPassedOnly s ↔ DsuMeets Dsu.SlotSound s := by
  have slot : (s.dsu.workDocket.isSome = true ∧
      (s.dsu.inPhase .lane || s.dsu.inPhase .laneOwed || s.dsu.inPhase .gone) = true) ↔
      ∃ w, s.dsu.work = some w ∧ w.KeepsDocket := by
    simp only [Option.isSome_iff_exists, Dsu.workDocket_iff, Bool.or_eq_true, Dsu.inPhase_iff, Work.KeepsDocket,
      ActionPhase.atLane_iff]
    cases s.dsu.work <;> simp [or_assoc]
  have marks : (∀ m, s.dsu.inPhase (.marking m) = true → s.dsu.workPassed) ↔
      ∀ w m, s.dsu.work = some w → w.phase = .marking m → w.item.Passed := by
    simp only [Dsu.inPhase_iff, Dsu.workPassed_iff]
    cases s.dsu.work with
    | none => simp
    | some w => simpa using ⟨fun h _ m same => same ▸ h m, fun h m => h w m rfl⟩
  unfold MarksPassedOnly WorkLineKeepsSlot
  rw [slot, marks]
  exact ⟨fun ⟨passed, one, kept⟩ => ⟨passed, one, kept⟩, fun ⟨passed, one, kept⟩ => ⟨passed, one, kept⟩⟩

section
variable {u v : Dsu}

theorem workLines_congr (waiters : v.recWaiters = u.recWaiters) : v.workLines = u.workLines := by
  unfold Dsu.workLines
  rw [waiters]

theorem Dsu.SlotSound.congr (h : u.SlotSound) (work : v.work = u.work) (lines : v.workLines = u.workLines) :
    v.SlotSound := by
  obtain ⟨passed, one, kept⟩ := h
  refine ⟨?_, ?_, ?_⟩
  · rwa [work]
  · rwa [lines]
  · rwa [lines, work]

/-- With no waiting line of its own the slot is sound when what is marked has passed. -/
theorem Dsu.SlotSound.of_noLines (noLines : u.workLines = [])
    (passed : ∀ w m, u.work = some w → w.phase = .marking m → w.item.Passed) : u.SlotSound := by
  refine ⟨passed, ?_, fun some' => absurd noLines some'⟩
  rw [noLines]
  exact Nat.zero_le 1

/-- A cylinder ahead of its lane movement has no waiting line. -/
theorem Dsu.SlotSound.noLines (h : u.SlotSound) {p : ActionPhase} (at' : u.inPhase p = true) (early : p.atLane = false) :
    u.workLines = [] := by
  by_contra some'
  obtain ⟨w, work, -, lane⟩ := h.kept some'
  obtain ⟨w', work', phase⟩ := (u.inPhase_iff p).mp at'
  rw [work] at work'
  cases work'
  rw [phase, early] at lane
  cases lane

/-- Nor has an empty slot. -/
theorem Dsu.SlotSound.noLines_empty (h : u.SlotSound) (empty : u.work = none) : u.workLines = [] := by
  by_contra some'
  obtain ⟨w, work, -⟩ := h.kept some'
  rw [empty] at work
  cases work

end

section
variable {s : State}

/-! ### The phases of the cylinder in work -/

theorem setPhase_work (p : ActionPhase) {w : Work} (now : (setPhase p s).dsu.work = some w) :
    ∃ v, s.dsu.work = some v ∧ w = { v with phase := p } := by
  obtain ⟨v, work, rfl⟩ := Option.map_eq_some_iff.mp now
  exact ⟨v, work, rfl⟩

/-- A cylinder goes on its lane, or has left: its line may wait, and nothing is marked (R168). -/
theorem setPhase_lane_sound {p : ActionPhase} (lane : p.atLane = true) (one : s.dsu.workLines.length ≤ 1)
    (docket : s.dsu.workLines ≠ [] → ∃ w d, s.dsu.work = some w ∧ w.item = .docket d) :
    DsuMeets Dsu.SlotSound (setPhase p s) := by
  refine ⟨fun w m now marks => ?_, one, fun some' => ?_⟩
  · obtain ⟨v, -, rfl⟩ := setPhase_work p now
    rw [show p = .marking m from marks] at lane
    cases lane
  · obtain ⟨w, d, work, item⟩ := docket some'
    exact ⟨{ w with phase := p }, congrArg (Option.map _) work, ⟨d, item⟩, lane⟩

theorem DsuMeets.toLane {p : ActionPhase} (h : DsuMeets Dsu.SlotSound s) (lane : p.atLane = true) :
    DsuMeets Dsu.SlotSound (setPhase p s) := by
  refine setPhase_lane_sound lane h.one fun some' => ?_
  obtain ⟨w, work, ⟨d, item⟩, -⟩ := h.kept some'
  exact ⟨w, d, work, item⟩

theorem enterLane_sound (lane : BitVec 2) (h : DsuMeets Dsu.SlotSound s) :
    DsuMeets Dsu.SlotSound (enterLane lane s) := by
  have moved : DsuMeets Dsu.SlotSound (s.withDsu { s.dsu with lane := lane }) := h.congr rfl rfl
  exact moved.toLane (by split <;> rfl)

/-- A phase ahead of the lane is taken with no line waiting; for the marking sequence the docket has passed (R167). -/
theorem setPhase_early_sound {p : ActionPhase} (noLines : s.dsu.workLines = [])
    (passed : ∀ m w, p = .marking m → s.dsu.work = some w → w.item.Passed) :
    DsuMeets Dsu.SlotSound (setPhase p s) := by
  refine .of_noLines noLines fun w m now marks => ?_
  obtain ⟨v, work, rfl⟩ := setPhase_work p now
  exact passed m v marks work

/-- The marking sequence goes from step to step on the docket that it began with (R171). -/
theorem DsuMeets.marksOn {m : MarkStep} (h : DsuMeets Dsu.SlotSound s) (at' : s.dsu.inPhase (.marking m) = true)
    (n : MarkStep) : DsuMeets Dsu.SlotSound (setPhase (.marking n) s) := by
  refine setPhase_early_sound (h.noLines at' rfl) fun _ w _ work => ?_
  obtain ⟨v, work', phase⟩ := (s.dsu.inPhase_iff _).mp at'
  rw [work] at work'
  cases work'
  exact h.passed w m work phase

theorem startPunch_sound (noLines : s.dsu.workLines = []) : DsuMeets Dsu.SlotSound (startPunch s) :=
  (setPhase_early_sound (p := .punching) noLines fun _ _ no => nomatch no).congr rfl rfl

/-! ### Record lines -/

/-- A line of another source replaces none of the work slot's (R176, R177). -/
theorem addWaiter_workLines (w : Waiter) (q : List Waiter) (other : w.source ≠ .work) :
    (addWaiter w q).filter (fun x => x.source == .work) = q.filter fun x => x.source == .work := by
  have replaced (x : Waiter) (same : w.sameCard x = true) : x.source ≠ .work := by
    intro work
    simp [Waiter.sameCard, work] at same
  unfold addWaiter
  split
  · clear * - other replaced
    induction q with
    | nil => rfl
    | cons x q ih =>
      rw [List.map_cons, List.filter_cons, List.filter_cons, ih]
      split
      · rename_i same
        simp [other, replaced x same]
      · rfl
  · simp [other]

/-- What a line's entry into the buffer leaves of the waiters and, for another source, of the slot. -/
theorem finishLine_waiters (w : Waiter) (s : State) : (finishLine w s).dsu.recWaiters = s.dsu.recWaiters := by
  unfold finishLine
  split
  · rw [queueNote_dsu]; rfl
  · rw [queueNote_dsu]; rfl
  · rfl

theorem finishLine_work (w : Waiter) (s : State) :
    (finishLine w s).dsu.work = s.dsu.work ∨
      w.source = .work ∧ (finishLine w s).dsu.work = s.dsu.work.bind Work.discarded := by
  unfold finishLine
  split
  · rename_i source _
    rw [queueNote_dsu]
    exact .inr ⟨source, rfl⟩
  · rw [queueNote_dsu]
    exact .inl rfl
  · exact .inl rfl

theorem Work.discarded_phase {w x : Work} (left : w.discarded = some x) : x.phase = w.phase := by
  unfold Work.discarded at left
  split at left
  · cases left
  · cases left
    rfl

/-- The line of a card, a stray or a MISSING docket leaves the work slot alone (R176, R178). -/
theorem produceLine_sound (w : Waiter) (other : w.source ≠ .work) (h : DsuMeets Dsu.SlotSound s) :
    DsuMeets Dsu.SlotSound (produceLine w s) := by
  unfold produceLine
  split
  · refine h.congr ?_ (workLines_congr (finishLine_waiters w _))
    rcases finishLine_work w (s.withDsu { s.dsu with recBuffer := s.dsu.recBuffer ++ [w.line] }) with same | ⟨own, -⟩
    · exact same
    · exact absurd own other
  · exact h.congr rfl (addWaiter_workLines w _ other)

/-- A waiter enters the buffer: the slot's own line was its only one, and its cylinder was not marked (R176, R178). -/
theorem finishLine_sound {w : Waiter} {more : List Waiter} (h : DsuMeets Dsu.SlotSound s)
    (waiters : s.dsu.recWaiters = w :: more) {z : State} (work : z.dsu.work = s.dsu.work)
    (left : z.dsu.recWaiters = more) : DsuMeets Dsu.SlotSound (finishLine w z) := by
  have lines := workLines_congr (finishLine_waiters w z)
  have now := finishLine_work w z
  rw [work] at now
  have all : s.dsu.workLines = if w.source == .work then w :: z.dsu.workLines else z.dsu.workLines := by
    unfold Dsu.workLines
    rw [waiters, left, List.filter_cons]
  by_cases own : w.source = .work
  · rw [if_pos (beq_iff_eq.mpr own)] at all
    obtain ⟨passed, one, kept⟩ := h
    rw [all] at one kept
    obtain ⟨x, inWork, -, lane⟩ := kept (List.cons_ne_nil _ _)
    refine .of_noLines (lines.trans (List.eq_nil_of_length_eq_zero ?_)) fun y m is marks => ?_
    · simpa using one
    · have phase : y.phase = x.phase := by
        rw [is, inWork] at now
        rcases now with same | ⟨-, gone⟩
        · rw [Option.some.inj same]
        · exact Work.discarded_phase gone.symm
      rw [← phase, marks] at lane
      cases lane
  · rw [if_neg (by simpa using own)] at all
    exact h.congr (now.resolve_right fun both => own both.1) (lines.trans all.symm)

theorem lineSent_sound (h : DsuMeets Dsu.SlotSound s) : DsuMeets Dsu.SlotSound (lineSent s) := by
  unfold lineSent
  split
  · exact h
  · dsimp only
    split
    · exact h.congr rfl rfl
    · rename_i waiters
      exact finishLine_sound h waiters rfl rfl

/-- The slot's first line enters the buffer, or it waits alone and the slot stands (R176). -/
theorem produceLine_first (l : RecLine) (noLines : s.dsu.workLines = []) :
    let t := produceLine { line := l, source := .work } s
    t.dsu.workLines = [] ∨ t.dsu.workLines.length = 1 ∧ t.dsu.work = s.dsu.work := by
  unfold produceLine
  split
  · exact .inl ((workLines_congr (finishLine_waiters _ _)).trans noLines)
  · refine .inr ⟨?_, rfl⟩
    unfold Dsu.workLines at noLines ⊢
    rw [State.withDsu_dsu, addWaiter_work, List.filter_append, noLines]
    rfl

/-- The disposition of the docket in work is decided while no line of the slot waits: the new line enters the buffer and
the docket is discarded, or it waits and the docket stays, with its cylinder on the lane (R167, R168, R176). -/
theorem settle_docket_sound {d : Docket} (disp : Disposition) (c : Option Cause) (lane : BitVec 2)
    (docket : s.dsu.workDocket = some d) (noLines : s.dsu.workLines = []) :
    DsuMeets Dsu.SlotSound (settle disp c lane s) := by
  obtain ⟨w, work, -⟩ := (s.dsu.workDocket_iff d).mp docket
  unfold settle
  rw [docket]
  dsimp only
  generalize written : s.withDsu _ = z
  have slot : z.dsu.work = some { w with item := .docket { d with disposal := some ⟨disp, c⟩ } } := by
    rw [← written, State.withDsu_dsu, work]
    rfl
  have lines : z.dsu.workLines = [] := by
    rw [← written]
    exact noLines
  obtain entered | ⟨waits, stands⟩ := produceLine_first (.docket { d with disposal := some ⟨disp, c⟩ }) lines
  · refine setPhase_lane_sound ?_ ?_ ?_
    · split <;> rfl
    · exact (congrArg List.length entered).trans_le (Nat.zero_le 1)
    · exact fun some' => absurd entered some'
  · refine setPhase_lane_sound ?_ (Nat.le_of_eq waits) fun _ => ?_
    · split <;> rfl
    · exact ⟨_, _, stands.trans slot, rfl⟩

theorem settle_sound (disp : Disposition) (c : Option Cause) (lane : BitVec 2) (h : DsuMeets Dsu.SlotSound s)
    (noLines : s.dsu.workLines = []) : DsuMeets Dsu.SlotSound (settle disp c lane s) := by
  cases docket : s.dsu.workDocket with
  | some d => exact settle_docket_sound disp c lane docket noLines
  | none =>
    unfold settle
    rw [docket]
    exact h

/-! ### Stops, and what comes from outside -/

theorem finishMissing_sound (i : Nat) (h : DsuMeets Dsu.SlotSound s) : DsuMeets Dsu.SlotSound (finishMissing i s) := by
  unfold finishMissing
  split
  · exact produceLine_sound _ (fun no => nomatch no) (s := s.withDsu _) (h.congr rfl rfl)
  · exact h

theorem disposeStop_sound (h : DsuMeets Dsu.SlotSound s) : DsuMeets Dsu.SlotSound (disposeStop s) := by
  have stopped : DsuMeets Dsu.SlotSound (s.withDsu { s.dsu with
    stopCopy := true, punchPulse := false, punchTimer := .stopped, strike := .stopped }) := h.congr rfl rfl
  unfold disposeStop
  dsimp only
  split
  · rename_i w work
    have inPhase : s.dsu.inPhase w.phase = true := (s.dsu.inPhase_iff _).mpr ⟨w, work, rfl⟩
    split
    · rename_i m phase
      rw [phase] at inPhase
      exact settle_sound _ _ _ stopped (h.noLines inPhase rfl)
    · rename_i phase
      rw [phase] at inPhase
      exact setPhase_early_sound (h.noLines inPhase rfl) fun _ _ no => nomatch no
    · exact stopped.toLane rfl
    · exact stopped
  · exact stopped

theorem disposeResume_sound (h : DsuMeets Dsu.SlotSound s) : DsuMeets Dsu.SlotSound (disposeResume s) := by
  have resumed : DsuMeets Dsu.SlotSound (s.withDsu { s.dsu with stopCopy := false }) := h.congr rfl rfl
  unfold disposeResume
  dsimp only
  split
  · rename_i owed
    exact startPunch_sound (resumed.noLines owed rfl)
  · exact ite_dsuMeets (resumed.toLane rfl) resumed

theorem slotSound_fromOutside : KeptFromOutside Dsu.SlotSound where
  reset := .of_noLines rfl fun _ _ no => nomatch no
  stands := fun stands h => h.congr stands.work (workLines_congr stands.waiters)
  joins := fun _ h => h.congr rfl rfl
  missing := finishMissing_sound
  carded := fun _ _ h => produceLine_sound _ (fun no => nomatch no) h
  stopped := disposeStop_sound
  resumed := disposeResume_sound

/-! ### The marking sequence -/

/-- A fault in the sequence decides the docket's disposition (R172). -/
theorem markFault_sound {m : MarkStep} (c : Cause) (h : DsuMeets Dsu.SlotSound s)
    (at' : s.dsu.inPhase (.marking m) = true) : DsuMeets Dsu.SlotSound (markFault c s) :=
  (settle_sound .held (some c) laneHold (s := s.withDsu { s.dsu with strike := .stopped }) (h.congr rfl rfl)
    (h.noLines at' rfl)).congr rfl rfl

/-- An exchange of the sequence: a fault abandons it, a good reply finds its step standing (R170 to R172). -/
theorem markExchange_sound {m : MarkStep} (cmd : BitVec 24) (next : Nat) (r : LinkReply)
    {good : BitVec 24 → State → State}
    (went : ∀ w u, u.dsu.inPhase (.marking m) = true → DsuMeets Dsu.SlotSound u → DsuMeets Dsu.SlotSound (good w u))
    (h : DsuMeets Dsu.SlotSound s) (at' : s.dsu.inPhase (.marking m) = true) :
    DsuMeets Dsu.SlotSound (exchange cmd next r (onLink good) s) := by
  refine slotSound_fromOutside.exchange _ _ _ (fun e u stands hu => ?_) h
  have still : u.dsu.inPhase (.marking m) = true := by
    rw [Dsu.inPhase, stands.work]
    exact at'
  cases e with
  | error c => exact markFault_sound c hu still
  | ok w => exact went w u still hu

theorem linkClear_sound (r : LinkReply) (h : DsuMeets Dsu.SlotSound s) : DsuMeets Dsu.SlotSound (linkClear r s) := by
  unfold linkClear
  split
  · rename_i at'
    exact markExchange_sound _ _ _ (fun _ _ still hu => hu.marksOn still _) h at'
  · exact h

theorem loadIndex_inPhase (u : Dsu) (i : Nat) (due : u.loadIndex = some i) : u.inPhase (.marking (.load i)) = true := by
  unfold Dsu.loadIndex at due
  split at due
  · rename_i work
    cases due
    exact (u.inPhase_iff _).mpr ⟨_, work, rfl⟩
  · cases due

theorem linkLoad_sound (r : LinkReply) (h : DsuMeets Dsu.SlotSound s) : DsuMeets Dsu.SlotSound (linkLoad r s) := by
  unfold linkLoad
  split
  · rename_i i due
    exact markExchange_sound _ _ _ (fun _ _ still hu => hu.marksOn still _) h (loadIndex_inPhase _ i due)
  · exact h

theorem queryReply_sound {m : MarkStep} (w : BitVec 24) (h : DsuMeets Dsu.SlotSound s)
    (at' : s.dsu.inPhase (.marking m) = true) : DsuMeets Dsu.SlotSound (queryReply w s) :=
  ite_dsuMeets (DsuMeets.marksOn (s := s.withDsu { s.dsu with baseCount := replyStrikes w }) (h.congr rfl rfl) at' _)
    (markFault_sound _ h at')

theorem pollReply_sound {m : MarkStep} (w : BitVec 24) (h : DsuMeets Dsu.SlotSound s)
    (at' : s.dsu.inPhase (.marking m) = true) : DsuMeets Dsu.SlotSound (pollReply w s) :=
  ite_dsuMeets
    (ite_dsuMeets
      (settle_sound _ _ _ (s := s.withDsu { s.dsu with strike := .stopped }) (h.congr rfl rfl) (h.noLines at' rfl))
      (markFault_sound _ h at')) h

theorem linkQuery_sound (r : LinkReply) (h : DsuMeets Dsu.SlotSound s) : DsuMeets Dsu.SlotSound (linkQuery r s) := by
  unfold linkQuery
  dsimp only
  split
  · rename_i at'
    exact markExchange_sound _ _ _ (fun w _ still hu => queryReply_sound w hu still) h at'
  · split
    · rename_i at'
      exact markExchange_sound _ _ _ (fun w _ still hu => pollReply_sound w hu still) h at'
    · exact h

theorem linkStrike_sound (r : LinkReply) (h : DsuMeets Dsu.SlotSound s) : DsuMeets Dsu.SlotSound (linkStrike r s) := by
  unfold linkStrike
  split
  · rename_i at'
    exact markExchange_sound _ _ _ (fun _ _ still hu => hu.marksOn still _)
      (s := s.withDsu { s.dsu with strike := .running }) (h.congr rfl rfl) at'
  · exact h

theorem strikeExpiry_sound (h : DsuMeets Dsu.SlotSound s) : DsuMeets Dsu.SlotSound (strikeExpiry s) := by
  unfold strikeExpiry
  split
  · rename_i at'
    exact markFault_sound _ h (Bool.and_eq_true .. ▸ at').1
  · exact h

/-! ### The marking station, the punch, the lanes -/

/-- The action of Table 10-3: the marking sequence for a verdict PASS alone (R167). -/
theorem beginAction_sound {d : Docket} (noLines : s.dsu.workLines = [])
    (slot : s.dsu.work = some { item := .docket d, phase := .marking .clear }) :
    DsuMeets Dsu.SlotSound (beginAction d s) := by
  have docket : s.dsu.workDocket = some d := (s.dsu.workDocket_iff d).mpr ⟨_, slot, rfl⟩
  have left : DsuMeets Dsu.SlotSound (setPhase .gone s) :=
    setPhase_early_sound noLines fun _ _ no => nomatch no
  unfold beginAction
  split
  · rename_i t intent test
    split
    · rename_i verdict
      refine setPhase_early_sound noLines fun _ w _ work => ?_
      rw [slot] at work
      cases work
      exact ⟨d, t, rfl, intent, test, verdict⟩
    · exact startPunch_sound noLines
    · exact settle_docket_sound _ _ _ docket noLines
    · exact left
  · exact startPunch_sound noLines
  · exact settle_docket_sound _ _ _ docket noLines
  · exact settle_docket_sound _ _ _ docket noLines
  · exact settle_docket_sound _ _ _ docket noLines
  · exact left

/-- A cylinder comes into an empty work slot (R166). -/
theorem identityRead_sound (m n : Text) (h : DsuMeets Dsu.SlotSound s) (empty : s.dsu.work = none) :
    DsuMeets Dsu.SlotSound (identityRead m n s) := by
  have noLines := h.noLines_empty empty
  unfold identityRead
  split
  · exact beginAction_sound noLines rfl
  · have stray : DsuMeets Dsu.SlotSound (putWork (.stray m n) .lane s) :=
      .of_noLines noLines fun _ _ now marks => by cases now; cases marks
    exact enterLane_sound laneHold (produceLine_sound _ (fun no => nomatch no) stray)

theorem markRead_sound (l : PortLine) (h : DsuMeets Dsu.SlotSound s) : DsuMeets Dsu.SlotSound (markRead l s) := by
  have held (p : Ports) : DsuMeets Dsu.SlotSound (s.withPorts p) := h
  unfold markRead
  dsimp only
  split
  · split
    · rename_i ready
      split
      · refine identityRead_sound _ _ (held _) ?_
        simp only [markReady, Bool.and_eq_true, Option.isNone_iff_eq_none] at ready
        exact ready.2
      · exact held _
    · exact held _
  · exact held _

theorem laneEnd_sound (h : DsuMeets Dsu.SlotSound s) : DsuMeets Dsu.SlotSound (laneEnd s) := by
  unfold laneEnd
  split
  · rename_i w work
    split
    · split
      · exact h.toLane rfl
      · rename_i other
        refine .of_noLines ?_ fun _ _ no => nomatch no
        by_contra some'
        obtain ⟨x, is, ⟨d, item⟩, -⟩ := h.kept some'
        rw [work] at is
        cases is
        exact other d item
    · exact h
  · exact h

theorem punchDone_sound (h : DsuMeets Dsu.SlotSound s) : DsuMeets Dsu.SlotSound (punchDone s) := by
  unfold punchDone
  split
  · rename_i at'
    exact settle_sound _ _ _ (s := s.withDsu { s.dsu with punchTimer := .stopped }) (h.congr rfl rfl)
      (h.noLines at' rfl)
  · exact h

theorem punchExpiry_sound (h : DsuMeets Dsu.SlotSound s) : DsuMeets Dsu.SlotSound (punchExpiry s) := by
  unfold punchExpiry
  split
  · rename_i due
    have noLines := h.noLines (Bool.and_eq_true .. ▸ due).1 rfl
    exact (setPhase_early_sound (p := .punchRetry) noLines fun _ _ no => nomatch no).congr rfl rfl
  · exact h

theorem panelClear_sound (r : LinkReply) (h : DsuMeets Dsu.SlotSound s) : DsuMeets Dsu.SlotSound (panelClear r s) := by
  have disarmed : DsuMeets Dsu.SlotSound ((s.withInputs { s.inputs with clear := true }).withDsu
      { s.dsu with clearArmed := false }) := h.congr rfl rfl
  refine ite_dsuMeets (ite_dsuMeets (slotSound_fromOutside.exchange _ _ _ (fun e u _ hu => ?_) disarmed) disarmed) h
  cases e with
  | error c => exact hu.congr rfl rfl
  | ok w =>
    have left : DsuMeets Dsu.SlotSound (u.withDsu { u.dsu with halt := none }) := hu.congr rfl rfl
    unfold panelReply
    dsimp only
    split
    · rename_i waits
      exact startPunch_sound (left.noLines waits rfl)
    · exact left

/-! ### The commands of the unit -/

/-- The commands of the disposal unit keep the slot sound. -/
theorem disposalCommand_sound (i : Instr) (s : State) (own : disposalCommand i = true)
    (h : DsuMeets Dsu.SlotSound s) : OutMeets (DsuMeets Dsu.SlotSound) (exec i s) := by
  cases i with
  | markReaderLine l => exact outMeets_ite (fun _ => markRead_sound l h) h
  | linkClear r => exact outMeets_ite (fun _ => linkClear_sound r h) h
  | linkLoad r => exact outMeets_ite (fun _ => linkLoad_sound r h) h
  | linkQuery r => exact outMeets_ite (fun _ => linkQuery_sound r h) h
  | linkStrike r => exact outMeets_ite (fun _ => linkStrike_sound r h) h
  | strikeTimeout => exact outMeets_ite (fun _ => strikeExpiry_sound h) h
  | punchDone => exact outMeets_ite (fun _ => punchDone_sound h) h
  | punchTimeout => exact outMeets_ite (fun _ => punchExpiry_sound h) h
  | punchPulseEnd => exact outMeets_ite (fun _ => h.congr rfl rfl) h
  | laneReleaseEnd => exact outMeets_ite (fun _ => laneEnd_sound h) h
  | disposeClear r => exact outMeets_ite (fun _ => panelClear_sound r h) h
  | arrivalTimeout i => exact outMeets_ite (fun _ => finishMissing_sound i h) h
  | callTimeout => exact outMeets_ite (fun _ => slotSound_fromOutside.callExpiry h) h
  | recordLineSent cts =>
    exact outMeets_ite (fun _ => ite_dsuMeets (lineSent_sound (s := s.withPorts _) h) h) h
  | _ => exact absurd own Bool.false_ne_true

end

/-- Settles O8: the sequence begins on a docket that has passed and goes on with it alone, as no waiting line of the slot is
left to change it. -/
theorem onlyPassedAreMarked : Obligations.OnlyPassedAreMarked := by
  intro s t h ran
  rw [marksPassedOnly_iff] at h ⊢
  exact slotSound_fromOutside.step disposalCommand_sound h ran

end Sys2Proof.Machine
end

section
/-! DOCKET_DIRECT and DOCKET_RETURN at DISPOSE (R160 to R162, R165): whether the unit answers, and what an accept field that
reads back takes. -/

namespace Sys2Proof.Machine

section
variable {f : Frame} (read : Byte) {d : Docket} {s : State}

theorem dsuActs_iff (s : State) : s.dsuActs = true ↔ s.role = some .dispose ∧ s.lif.roleConflict = false := by
  simp [State.dsuActs]

/-! ### Whether the unit answers -/

/-- A direct docket is answered with a free place and a new identity, and not otherwise (R160). -/
theorem directFor_decides (acts : s.dsuActs = true) (dest : f.dest = 0#4 ++ s.ownAddr)
    (form : parseDocket .docketDirect (keyAddr f.key) f.body = some d) :
    directFor f read s =
      if 1 ≤ s.dsu.free ∧ s.dsu.fresh d = true then writeAccept read (addArrival d) s else s := by
  simp [directFor, acts, State.addressed, dest, form]

/-- A return is answered from the head called, with a new identity, and not otherwise (R161, R165). -/
theorem returnFor_decides (acts : s.dsuActs = true) (dest : f.dest = 0#4 ++ s.ownAddr)
    (form : parseDocket .docketReturn (keyAddr f.key) f.body = some d) :
    returnFor f read s =
      if s.dsu.called (keyAddr f.key) = true ∧ s.dsu.fresh d = true then writeAccept read (returnAccepted d) s else s := by
  simp [returnFor, acts, State.addressed, dest, form]

theorem Dsu.called_iff (u : Dsu) (a : Addr) : u.called a = true ↔ ∃ c, u.call = some c ∧ c.head = a := by
  unfold Dsu.called
  cases u.call <;> simp

/-! ### What is taken -/

/-- A return with its cylinder ends the call and joins the queue (R161, R165). -/
theorem returnAccepted_cylinder (s : State) (has : d.noCylinder = false) : returnAccepted d s =
    { s with dsu := { s.dsu with call := none, arrival := s.dsu.arrival ++ [{ docket := d }] } } := by
  simp [returnAccepted, has, addArrival, State.withDsu]

end

/-- Settles O32: whether the unit answers, whether its accept field reads back, and for a return whether a cylinder comes
with it. -/
theorem docketsAcceptedAtDispose : Obligations.DocketsAcceptedAtDispose := by
  intro f read d s role open' can dest own mine free known heard
  have acts : (buffered f s).dsuActs = true := (dsuActs_iff (buffered f s)).mpr ⟨role, open'⟩
  have new : (buffered f s).dsu.fresh d = !known := rfl
  have taken (take : State → State) : writeAccept mine take (buffered f s) = take { s with lif := heard (some mine) } :=
    writeAccept_taken f s take
  have mismatch (take : State → State) (other : read ≠ mine) :
      writeAccept read take (buffered f s) = { s with lif := heard (some mine) } := writeAccept_mismatch f read s take other
  have refused : buffered f s = { s with lif := heard none } := rfl
  refine ⟨fun passed form => ?_, fun passed form => ?_⟩
  · have runs := execDocketDirect_passed f read s can passed
    have decides := directFor_decides read acts dest form
    rw [new] at decides
    refine ⟨fun room unknown same => ?_, fun room unknown other => ?_, fun no => ?_⟩
    · rw [if_pos ⟨room, by rw [unknown]; rfl⟩, same, taken] at decides
      rw [runs, same, decides]
      rfl
    · rw [if_pos ⟨room, by rw [unknown]; rfl⟩, mismatch _ other] at decides
      rw [runs, decides]
    · rw [if_neg] at decides
      · rw [runs, decides, refused]
      · rintro ⟨room, unknown⟩
        rcases no with none' | no
        · exact absurd none' (Nat.ne_of_gt room)
        · rw [no] at unknown
          cases unknown
  · have runs := execDocketReturn_passed f read s can passed
    have decides := returnFor_decides read acts dest form
    rw [new] at decides
    have answers (c : Call) (call : s.dsu.call = some c) (head : c.head = keyAddr f.key) (unknown : known = false) :
        returnFor f read (buffered f s) = writeAccept read (returnAccepted d) (buffered f s) := by
      rw [decides]
      exact if_pos ⟨(Dsu.called_iff _ _).mpr ⟨c, call, head⟩, by rw [unknown]; rfl⟩
    refine ⟨fun c call head unknown same has => ?_, fun c call head unknown same missing => ?_,
      fun c call head unknown other => ?_, fun no => ?_⟩
    · rw [runs, answers c call head unknown, same, taken, returnAccepted_cylinder _ has]
    · have lost := returnAccepted_missing d { s with lif := heard (some mine) } missing open' unknown
      rw [runs, answers c call head unknown, same, taken]
      exact ⟨fun room => congrArg _ (lost.1 room), fun full => congrArg _ (lost.2 full)⟩
    · rw [runs, answers c call head unknown, mismatch _ other]
    · rw [if_neg] at decides
      · rw [runs, decides, refused]
      · rintro ⟨called, unknown⟩
        obtain ⟨c, call, head⟩ := (Dsu.called_iff _ _).mp called
        rcases no with no | no
        · rw [no] at unknown
          cases unknown
        · exact no c call head

end Sys2Proof.Machine
end

section
/-! ROUND_END at DISPOSE (R53, R159, R164, R176): the record line of a kept card, and then the call of a head (log 11). -/

namespace Sys2Proof.Machine

/-! ### The posted state (R158) -/

section
variable {s : State} (free : s.lif.roleConflict = false)
include free

theorem disposeState_stopped (stop : s.dsu.stopCopy = true) : disposeState s = .estop := by
  simp [disposeState, free, stop]

theorem disposeState_halted (run : s.dsu.stopCopy = false) (halt : s.dsu.halt.isSome = true) :
    disposeState s = .halt := by
  simp [disposeState, free, run, halt]

theorem disposeState_recordHold (run : s.dsu.stopCopy = false) (live : s.dsu.halt = none)
    (full : 4 ≤ s.dsu.recBuffer.length) : disposeState s = .recordHold := by
  simp [disposeState, free, run, live, Config.recordCap, full]

theorem disposeState_rest (run : s.dsu.stopCopy = false) (live : s.dsu.halt = none)
    (room : s.dsu.recBuffer.length < 4) :
    disposeState s = .full ∨ disposeState s = .calling ∨ disposeState s = .ready := by
  have notFull : ¬ Config.recordCap ≤ s.dsu.recBuffer.length := Nat.not_le.mpr room
  unfold disposeState
  simp only [free, run, live, notFull, Bool.false_eq_true, Option.isSome_none, if_false]
  split
  · exact .inl rfl
  · split
    · exact .inr (.inl rfl)
    · exact .inr (.inr rfl)

/-- The state posted is none of ESTOP, HALT and RECORD_HOLD exactly with no stop, no HALT cause and room for a line. -/
theorem disposeState_clear_iff :
    (disposeState s ≠ .estop ∧ disposeState s ≠ .halt ∧ disposeState s ≠ .recordHold) ↔
      s.dsu.stopCopy = false ∧ s.dsu.halt = none ∧ s.dsu.recBuffer.length < 4 := by
  cases run : s.dsu.stopCopy with
  | true => simp [disposeState_stopped free run]
  | false =>
    cases live : s.dsu.halt with
    | some c => simp [disposeState_halted free run (by rw [live]; rfl)]
    | none =>
      by_cases room : s.dsu.recBuffer.length < 4
      · rcases disposeState_rest free run live room with is | is | is <;> simp [is, room]
      · simp [disposeState_recordHold free run live (Nat.not_lt.mp room), room]

theorem disposeState_halt_iff :
    disposeState s = .halt ↔ s.dsu.stopCopy = false ∧ s.dsu.halt.isSome = true := by
  cases run : s.dsu.stopCopy with
  | true => simp [disposeState_stopped free run]
  | false =>
    cases live : s.dsu.halt with
    | some c => simp [disposeState_halted free run (by rw [live]; rfl)]
    | none =>
      by_cases room : s.dsu.recBuffer.length < 4
      · rcases disposeState_rest free run live room with is | is | is <;> simp [is]
      · simp [disposeState_recordHold free run live (Nat.not_lt.mp room)]

theorem disposeState_ne_conflict : disposeState s ≠ .conflict := by
  intro conflict
  unfold disposeState at conflict
  rw [free] at conflict
  simp only [Bool.false_eq_true, if_false] at conflict
  (repeat' split at conflict) <;> cases conflict

/-- When a head may be called (R164): no call is outstanding or queued, with room for the call, a place for its docket, no
stop, no HALT cause and room for a record line. -/
theorem mayCall_iff (heard : s.lif.lineSilent = false) : s.mayCall = true ↔
    s.dsu.call = none ∧ (∀ m ∈ s.txq, m.kind ≠ .releaseCall) ∧ s.txq.length < 4 ∧ s.dsu.stopCopy = false ∧
      s.dsu.halt = none ∧ s.dsu.recBuffer.length < 4 ∧ s.dsu.arrival.length < 6 := by
  have queued : s.hasMsg .releaseCall = false ↔ ∀ m ∈ s.txq, m.kind ≠ .releaseCall := by
    rw [← Bool.not_eq_true, hasMsg_iff]
    exact ⟨fun no m hm k => no ⟨m, hm, k⟩, fun no ⟨m, hm, k⟩ => no m hm k⟩
  have place (none' : s.dsu.call = none) : 1 ≤ s.dsu.free ↔ s.dsu.arrival.length < 6 := by
    have cap : Config.arrivalCap = 6 := rfl
    simp only [Dsu.free, none', cap, Option.isSome_none, Bool.false_eq_true, if_false]
    omega
  have clear := disposeState_clear_iff free
  rw [State.mayCall]
  simp only [Bool.and_eq_true, Option.isNone_iff_eq_none, Bool.not_eq_true', queued, txRoom_iff, decide_eq_true_iff,
    bne_iff_ne, heard, and_true]
  have away := disposeState_ne_conflict free
  constructor
  · rintro ⟨⟨⟨⟨⟨⟨⟨call, none'⟩, room⟩, one⟩, stop⟩, halt⟩, hold⟩, -⟩
    obtain ⟨run, live, line⟩ := clear.mp ⟨stop, halt, hold⟩
    exact ⟨call, none', room, run, live, line, (place call).mp one⟩
  · rintro ⟨call, none', room, run, live, line, one⟩
    obtain ⟨stop, halt, hold⟩ := clear.mpr ⟨run, live, line⟩
    exact ⟨⟨⟨⟨⟨⟨⟨call, none'⟩, room⟩, (place call).mpr one⟩, stop⟩, halt⟩, hold⟩, away⟩

end

/-! ### The call (R164) -/

section
variable {s : State}

theorem callDecision_calls {a : Addr} (free : s.lif.roleConflict = false) (picks : s.headToCall = some a)
    (may : s.mayCall = true) : callDecision s =
      { s with
        dsu := { s.dsu with call := some { head := a, returnPhase := false, timer := .running } }
        txq := insertMsg { kind := .releaseCall, dest := 0#4 ++ a, body := [] } s.txq } := by
  have room : s.txq.length < 4 := by
    simp only [State.mayCall, Bool.and_eq_true] at may
    exact txRoom_iff.mp may.1.1.1.1.1.1.2
  unfold callDecision
  rw [picks]
  dsimp only
  rw [if_pos may]
  exact queueMsg_taken _ (s.withDsu _) room free

theorem callDecision_waits (no : s.headToCall = none ∨ ¬ s.mayCall = true) : callDecision s = s := by
  unfold callDecision
  rcases no with none' | mayNot
  · rw [none']
  · split
    · exact if_neg mayNot
    · rfl

theorem headToCall_congr {t : State} (table : t.pvt = s.pvt) : t.headToCall = s.headToCall := by
  unfold State.headToCall State.entry
  rw [table]

/-! ### The record line of a kept card (R53, R176) -/

/-- A card's line has no docket to finish: it changes the buffer or the waiting lines and nothing else. -/
theorem produceLine_card_frame (a : Addr) (c : Card) (s : State) : ∃ b l,
    produceLine (cardLine a c) s = { s with dsu := { s.dsu with recBuffer := b, recWaiters := l } } := by
  unfold produceLine
  split
  · exact ⟨_, s.dsu.recWaiters, rfl⟩
  · exact ⟨s.dsu.recBuffer, _, rfl⟩

theorem cardRecord_line (s : State) : ∃ b l,
    cardRecord s = { s with dsu := { s.dsu with recBuffer := b, recWaiters := l } } := by
  unfold cardRecord
  split
  · split
    · exact produceLine_card_frame _ _ s
    · exact ⟨_, _, rfl⟩
  · exact ⟨_, _, rfl⟩

/-- What the decision on a call reads besides the buffer. -/
theorem cardRecord_stands (s : State) :
    let t := cardRecord s
    t.lif = s.lif ∧ t.pvt = s.pvt ∧ t.txq = s.txq ∧ t.dsu.call = s.dsu.call ∧ t.dsu.stopCopy = s.dsu.stopCopy ∧
      t.dsu.halt = s.dsu.halt ∧ t.dsu.arrival = s.dsu.arrival := by
  obtain ⟨b, l, recorded⟩ := cardRecord_line s
  rw [recorded]
  exact ⟨rfl, rfl, rfl, rfl, rfl, rfl, rfl⟩

/-- The line of the card that the table keeps, seen in a state with that table. -/
theorem cardRecord_kept {t : State} (table : t.pvt = s.pvt) : KeptCardLine s t (cardRecord s).dsu := by
  have entry (a : Addr) : t.entry a = s.entry a := congrArg (·.getD a.toNat {}) table
  unfold cardRecord
  cases came : s.lif.round.cardFrom with
  | none => exact ⟨fun _ => rfl, fun _ _ ⟨no, _⟩ => by rw [came] at no; cases no⟩
  | some a =>
    dsimp only
    cases has : (s.entry a).card with
    | some c => exact produceLine_card s t a c came ((congrArg PvtEntry.card (entry a)).trans has)
    | none =>
      refine ⟨fun _ => rfl, fun b c ⟨from', kept⟩ => ?_⟩
      rw [came] at from'
      cases from'
      rw [entry, has] at kept
      cases kept

/-- What a round's card line is rests on the round's card and on the unit alone. -/
theorem KeptCardLine.of_unit {r t : State} {d : Dsu} (h : KeptCardLine s t d) (unit : s.dsu = r.dsu)
    (came : s.lif.round.cardFrom = r.lif.round.cardFrom) : KeptCardLine r t d := by
  unfold KeptCardLine at h ⊢
  rw [unit, came] at h
  exact h

end

/-! ### The round's end -/

section
variable (w : PostWord) (posts : List PostWord) (cell263 : Bool) (s : State)

/-- Where ROLE_CONFLICT is not entered, the stages ahead of the decisions leave the unit as the drop left it, and the queue
that `RoundEndQueue` names (R36, R47). -/
theorem roundCounted_dispose
    (still : conflictStep .dispose (roundCarded .dispose w posts cell263 s) = roundCarded .dispose w posts cell263 s) :
    let v := roundCounted .dispose w posts cell263 s
    RoundEndQueue .dispose posts (dropMessage s) v.txq ∧ v.dsu = (dropMessage s).dsu := by
  obtain ⟨x, a, counted⟩ := counted_frame (roundCarded .dispose w posts cell263 s)
  have stages : roundCounted .dispose w posts cell263 s =
      staleStep (refreshShare (ageStep (waitStep (roundCarded .dispose w posts cell263 s)))) := by
    rw [roundCounted, still]
  dsimp only
  rw [stages, counted]
  refine ⟨?_, ?_⟩
  · have queue := roundEnd_queue .dispose posts w cell263 (dropMessage s)
    rw [dropMessage_pvt] at queue
    exact queue
  · obtain ⟨q, p, carded⟩ := cardStep_frame .dispose s.pvt (roundTabled w posts cell263 s)
    rw [roundCarded, carded]
    rfl

theorem completeRound_conflict_eq : (completeRound .dispose w posts cell263 s).lif.roleConflict =
    (roundCounted .dispose w posts cell263 s).lif.roleConflict := by
  rw [completeRound_lif]
  split <;> rfl

/-- Out of ROLE_CONFLICT the unit produces the card's line and then decides on a call. -/
theorem completeRound_dispose (free : (roundCounted .dispose w posts cell263 s).lif.roleConflict = false) :
    let t := completeRound .dispose w posts cell263 s
    let z := callDecision (cardRecord (roundCounted .dispose w posts cell263 s))
    t.txq = z.txq ∧ t.dsu = z.dsu := by
  have decided : roleStep .dispose (roundCounted .dispose w posts cell263 s) =
      callDecision (cardRecord (roundCounted .dispose w posts cell263 s)) :=
    if_neg (by rw [free]; exact Bool.false_ne_true)
  obtain ⟨l, ended⟩ := endRound_frame (roleStep .dispose (roundCounted .dispose w posts cell263 s))
  rw [completeRound_eq, ended, decided]
  exact ⟨rfl, rfl⟩

/-- In ROLE_CONFLICT already, no conflict is entered again (R38). -/
theorem conflictStep_stands (r : Role) (u : State) (conflict : u.lif.roleConflict = true) : conflictStep r u = u :=
  if_neg (by simp [conflict])

theorem roundCarded_conflict (r : Role) :
    (roundCarded r w posts cell263 s).lif.roleConflict = s.lif.roleConflict := by
  rw [roundCarded_lif, roundTabled_lif]

/-- A round's end that stays in ROLE_CONFLICT leaves the unit to the drop, and the queue that `RoundEndQueue` names. -/
theorem completeRound_inConflict (conflict : s.lif.roleConflict = true) :
    let t := completeRound .dispose w posts cell263 s
    RoundEndQueue .dispose posts (dropMessage s) t.txq ∧ t.dsu = (dropMessage s).dsu := by
  obtain ⟨queue, unit⟩ := roundCounted_dispose w posts cell263 s
    (conflictStep_stands _ _ ((roundCarded_conflict w posts cell263 s .dispose).trans conflict))
  have stays : (roundCounted .dispose w posts cell263 s).lif.roleConflict = true := by
    rw [roundCounted_lif]
    simp [conflict]
  obtain ⟨l, ended⟩ := endRound_frame (roundCounted .dispose w posts cell263 s)
  dsimp only
  rw [completeRound_conflict .dispose w posts cell263 s stays, ended]
  exact ⟨queue, unit⟩

/-- A round's end out of ROLE_CONFLICT: the line of a kept card, then the call of the head that the updated table names
(R53, R164, R176). -/
theorem completeRound_calls (free : (completeRound .dispose w posts cell263 s).lif.roleConflict = false) :
    let r := dropMessage s
    let t := completeRound .dispose w posts cell263 s
    ∃ d q, KeptCardLine r t d ∧ RoundEndQueue .dispose posts r q ∧
      (let may := r.dsu.call = none ∧ (∀ m ∈ q, m.kind ≠ .releaseCall) ∧ q.length < 4 ∧ r.dsu.stopCopy = false ∧
        r.dsu.halt = none ∧ d.recBuffer.length < 4 ∧ r.dsu.arrival.length < 6
       (∀ a, t.headToCall = some a → may →
        t.dsu = { d with call := some { head := a, returnPhase := false, timer := .running } } ∧
        t.txq = insertMsg { kind := .releaseCall, dest := 0#4 ++ a, body := [] } q) ∧
       (t.headToCall = none ∨ ¬ may → t.dsu = d ∧ t.txq = q)) := by
  intro r t
  have table : t.pvt = (roundCounted .dispose w posts cell263 s).pvt := by rw [completeRound_pvt, roundCounted_pvt]
  have lif := roundCounted_lif .dispose w posts cell263 s
  rw [completeRound_conflict_eq] at free
  have unseen : (roundCarded .dispose w posts cell263 s).seesTwin .dispose = false := by
    rw [lif] at free
    exact (Bool.or_eq_false_iff.mp free).2
  obtain ⟨queue, unit⟩ := roundCounted_dispose w posts cell263 s (conflictStep_unseen _ _ unseen)
  obtain ⟨txq, dsu⟩ := completeRound_dispose w posts cell263 s free
  have heard : (roundCounted .dispose w posts cell263 s).lif.lineSilent = false := by rw [lif]
  have came : (roundCounted .dispose w posts cell263 s).lif.round.cardFrom = r.lif.round.cardFrom := by
    rw [lif]
    exact congrArg (·.round.cardFrom) (dropMessage_lif s).symm
  have line := (cardRecord_kept table).of_unit unit came
  generalize roundCounted .dispose w posts cell263 s = v at *
  obtain ⟨lif', pvt, same, call, stop, halt, arrival⟩ := cardRecord_stands v
  rw [unit] at call stop halt arrival
  refine ⟨(cardRecord v).dsu, v.txq, line, queue, ?_⟩
  intro may
  have may_iff : (cardRecord v).mayCall = true ↔ may := by
    rw [mayCall_iff (by rw [lif']; exact free) (by rw [lif']; exact heard), same, call, stop, halt, arrival]
  rw [← may_iff, headToCall_congr (table.trans pvt.symm), dsu, txq]
  refine ⟨fun a head can => ?_, fun no => ?_⟩
  · rw [callDecision_calls (by rw [lif']; exact free) head can, same]
    exact ⟨rfl, rfl⟩
  · rw [callDecision_waits no, same]
    exact ⟨rfl, rfl⟩

end

/-- Settles O39: out of ROLE_CONFLICT the card's line and the call; in it neither, and entering it empties the queue. -/
theorem callQueuedAtRoundEnd : Obligations.CallQueuedAtRoundEnd := by
  intro posts cell263 w s role posted due
  have entering := completeRound_entersConflict .dispose w posts cell263 s
  refine ⟨_, _, execMessageDropped_eq s, execRoundEnd_due posts cell263 .dispose w s role posted due,
    completeRound_calls w posts cell263 s, fun conflict => ?_, fun free conflict => (entering free conflict).1,
    fun conflict => (completeRound_inConflict w posts cell263 s conflict).1⟩
  by_cases before : s.lif.roleConflict = true
  · rw [(completeRound_inConflict w posts cell263 s before).2]
    exact ⟨rfl, rfl, rfl⟩
  · obtain ⟨-, -, dsu⟩ := entering (Bool.eq_false_iff.mpr before) conflict
    rw [dsu]
    exact ⟨rfl, rfl, rfl⟩

end Sys2Proof.Machine
end

section
/-! The marking reader (R166, R167, Table 10-3): when a line is taken, and the action that the docket it names begins. -/

namespace Sys2Proof.Machine

/-! ### When a line is taken (R166) -/

theorem markReady_iff {s : State} (role : s.role = some .dispose) (free : s.lif.roleConflict = false) :
    markReady s = true ↔
      s.dsu.stopCopy = false ∧ s.dsu.halt = none ∧ s.dsu.recBuffer.length < 4 ∧ s.dsu.work = none := by
  have clear := disposeState_clear_iff free
  have acts := (dsuActs_iff s).mpr ⟨role, free⟩
  simp only [markReady, acts, Bool.true_and, Bool.and_eq_true, bne_iff_ne, Option.isNone_iff_eq_none]
  rw [and_assoc (a := disposeState s ≠ .estop), clear]
  simp only [and_assoc]

/-- The state with a line in the buffer of port A (R166). -/
def readerHeld (l : PortLine) (s : State) : State :=
  { s with ports := { s.ports with lineA := assembleLine 64 l } }

section
variable {l : PortLine} {s : State} (role : s.role = some .dispose) (handed : lineHanded l = true)
include role handed

theorem execMarkReaderLine_ignored (no : markReady s = false ∨ markIdentity (assembleLine 64 l) = none) :
    exec (.markReaderLine l) s = .next (readerHeld l s) := by
  have runs : exec (.markReaderLine l) s = .next (markRead l s) := if_pos (beq_iff_eq.mpr role)
  rw [runs, markRead, if_pos handed]
  refine congrArg Host.Outcome.next ?_
  rcases no with shut | none'
  · exact if_neg (fun ready => Bool.false_ne_true (shut.symm.trans ready))
  · dsimp only
    split
    · rw [show markIdentity (assembleLine Config.portACap l) = none from none']
      rfl
    · rfl

theorem execMarkReaderLine_read {m n : Text} (ready : markReady s = true)
    (identity : markIdentity (assembleLine 64 l) = some (m, n)) :
    exec (.markReaderLine l) s = .next (identityRead m n (readerHeld l s)) := by
  have runs : exec (.markReaderLine l) s = .next (markRead l s) := if_pos (beq_iff_eq.mpr role)
  rw [runs, markRead, if_pos handed]
  refine congrArg Host.Outcome.next ((if_pos ready).trans ?_)
  rw [show markIdentity (assembleLine Config.portACap l) = some (m, n) from identity]
  rfl

end

/-! ### The cylinder in work -/

section
variable {w : Work} {s : State} (slot : s.dsu.work = some w)
include slot

theorem setPhase_slot (p : ActionPhase) :
    setPhase p s = { s with dsu := { s.dsu with work := some { w with phase := p } } } := by
  unfold setPhase
  rw [slot]
  rfl

/-- The punch phase starts with its pulse and its timer (R173). -/
theorem startPunch_slot : startPunch s =
    { s with dsu := { s.dsu with
      work := some { w with phase := .punching }, punchPulse := true, punchTimer := .running } } := by
  unfold startPunch
  rw [setPhase_slot slot]
  rfl

theorem inPhase_slot (p : ActionPhase) : s.dsu.inPhase p = (w.phase == p) := by
  rw [Dsu.inPhase, slot]

end

/-! ### A docket, or a stray (R166, R168) -/

section
variable {m n : Text} {s : State}

/-- The cylinder of no queued docket goes to the hold lane, its line into the buffer (R166, R176). -/
theorem identityRead_stray (none' : s.dsu.arrival.find? (Arrival.isFor m n) = none) (run : s.dsu.stopCopy = false)
    (room : s.dsu.recBuffer.length < 4) : identityRead m n s =
      { s with dsu := { s.dsu with
        lane := 3
        recBuffer := s.dsu.recBuffer ++ [.stray m n]
        work := some { item := .stray m n, phase := .lane } } } := by
  have line : produceLine { line := .stray m n, source := .stray } (putWork (.stray m n) .lane s) =
      enterBuffer { line := .stray m n, source := .stray } (putWork (.stray m n) .lane s) := if_pos room
  have lane (t : State) (same : t.dsu.stopCopy = false) :
      enterLane laneHold t = setPhase .lane (t.withDsu { t.dsu with lane := laneHold }) := by
    unfold enterLane
    dsimp only
    rw [State.withDsu_dsu, same]
    rfl
  rw [identityRead, none']
  dsimp only
  rw [line]
  exact lane _ run

/-- A docket found leaves the queue for the work slot (R166). -/
theorem identityRead_found {a : Arrival} (found : s.dsu.arrival.find? (Arrival.isFor m n) = some a) :
    identityRead m n s = beginAction a.docket
      { s with dsu := { s.dsu with
        arrival := s.dsu.arrival.eraseP (Arrival.isFor m n)
        work := some { item := .docket a.docket, phase := .marking .clear } } } := by
  rw [identityRead, found]
  rfl

/-! ### The actions of Table 10-3 (R167) -/

variable {d : Docket}

section
variable {x : TestPart} (intent : d.intent = some .test) (test : d.test = some x)
include intent test

theorem beginAction_pass (verdict : x.verdict = .pass) : beginAction d s = setPhase (.marking .clear) s := by
  simp [beginAction, intent, test, verdict]

theorem beginAction_condemn (verdict : x.verdict = .condemn) : beginAction d s = startPunch s := by
  simp [beginAction, intent, test, verdict]

theorem beginAction_invalid (verdict : x.verdict = .invalid) :
    beginAction d s = settle .returned none laneReturn s := by
  simp [beginAction, intent, test, verdict]

end

/-- A docket whose cylinder has not left is settled with everything that R167, R168, R176 and R178 name. -/
theorem settle_slot {p : ActionPhase} (disp : Disposition) (c : Option Cause) (lane : BitVec 2)
    (free : s.lif.roleConflict = false) (slot : s.dsu.work = some { item := .docket d, phase := p }) (here : p ≠ .gone) :
    Settled d disp c lane s (settle disp c lane s) := by
  refine settle_settled d disp c lane s ((s.dsu.workDocket_iff d).mpr ⟨_, slot, rfl⟩) free ?_
  rw [Dsu.inPhase, slot]
  exact beq_eq_false_iff_ne.mpr here

end

/-- Settles O58: whether the line is taken, whether it names a queued docket, and then the intent and the verdict of
Table 10-3. -/
theorem markingReaderTakes : Obligations.MarkingReaderTakes := by
  intro l m n s role free handed b run ports found
  have ready_iff := markReady_iff role free
  refine ⟨ready_iff, execMarkReaderLine_ignored role handed, fun ready identity => ?_⟩
  obtain ⟨stop, -, room, -⟩ := ready_iff.mp ready
  have reads : run = .next (identityRead m n (readerHeld l s)) := execMarkReaderLine_read role handed ready identity
  rw [reads]
  refine ⟨fun none' => congrArg _ (identityRead_stray none' stop room), fun a is => ?_⟩
  intro d dsu taken struck settles
  have begins : identityRead m n (readerHeld l s) = beginAction d taken := identityRead_found is
  have punches : startPunch taken = struck := startPunch_slot (s := taken) rfl
  have settled (disp : Disposition) (lane : BitVec 2) (decides : beginAction d taken = settle disp none lane taken) :
      ∃ t, Host.Outcome.next (identityRead m n (readerHeld l s)) = (.next t : Out) ∧ Settled d disp none lane taken t := by
    rw [begins, decides]
    exact ⟨_, rfl, settle_slot disp none lane free (s := taken) rfl (fun no => nomatch no)⟩
  refine ⟨fun x intent test => ?_, fun intent => ?_, fun intent => ?_, fun intent => ?_, fun intent => ?_⟩
  · refine ⟨fun pass => ?_, fun condemn => ?_, fun invalid => ?_⟩
    · rw [begins, beginAction_pass intent test pass]
      exact congrArg _ (setPhase_slot (s := taken) rfl _)
    · rw [begins, beginAction_condemn intent test condemn]
      exact congrArg _ punches
    · exact settled .returned laneReturn (beginAction_invalid intent test invalid)
  · rw [begins, beginAction, intent]
    exact congrArg _ punches
  · exact settled .returned laneReturn (by rw [beginAction, intent])
  · exact settled .held laneHold (by rw [beginAction, intent])
  · exact settled .passed laneGood (by rw [beginAction, intent])

end Sys2Proof.Machine
end

section
/-! The marking sequence (R169 to R172, Table 10-4): the words, the checks of a reply in their order, and each exchange. -/

namespace Sys2Proof.Machine

/-! ### Words and replies (Table 10-4, R170) -/

theorem linkWord_toNat (op pos seq : Nat) (ch : Byte) (opFits : op < 16) (posFits : pos < 16) (seqFits : seq < 256) :
    (linkWord op pos ch seq).toNat = 1048576 * op + 65536 * pos + 256 * ch.toNat + seq := by
  simp only [linkWord, toNat_append_eq, BitVec.toNat_ofNat]
  omega

/-- A reply that passes every check (R170): no echo, a stop bit, a state of the table other than FAULT, the sequence of the
command. -/
def GoodReply (cmd w : BitVec 24) (stopBit : Bool) : Prop :=
  w ≠ cmd ∧ stopBit = true ∧ 1 ≤ replyState w ∧ replyState w ≤ 4 ∧ replySeq w = cmd.extractLsb' 0 8

theorem replyFault_echo (cmd : BitVec 24) (stopBit : Bool) : replyFault cmd cmd stopBit = some .markerSilent :=
  if_pos (beq_iff_eq.mpr rfl)

theorem replyFault_good {cmd w : BitVec 24} {stopBit : Bool} (good : GoodReply cmd w stopBit) :
    replyFault cmd w stopBit = none := by
  obtain ⟨other, stop, low, high, seq⟩ := good
  have state : ¬ replyState w < 1 ∧ ¬ 5 < replyState w ∧ ¬ replyState w = 5 := by omega
  simp [replyFault, other, stop, state, seq]

theorem replyFault_bad {cmd w : BitVec 24} {stopBit : Bool} (other : w ≠ cmd) (bad : ¬ GoodReply cmd w stopBit) :
    replyFault cmd w stopBit = some .markFault := by
  unfold replyFault
  rw [if_neg (by simpa using other)]
  split
  · rfl
  · rename_i passes
    split
    · rfl
    · rename_i state
      refine absurd ⟨other, ?_⟩ bad
      simp only [Bool.or_eq_true, Bool.not_eq_true', decide_eq_true_eq, bne_iff_ne, not_or, Bool.not_eq_false,
        Decidable.not_not, beq_iff_eq] at passes state
      obtain ⟨⟨⟨stop, low⟩, high⟩, seq⟩ := passes
      exact ⟨stop, by omega, by omega, seq⟩

/-! ### The exchanges of the sequence (R171) -/

/-- The unit once a word has been driven and a reply has come (R169). -/
def Dsu.exchanged (u : Dsu) (cmd : BitVec 24) (next : Nat) (reg : BitVec 24) : Dsu :=
  { u with linkSent := some cmd, linkSeq := next, linkReg := reg }

/-- The stamp is that of the docket in work (R171). -/
theorem stamp_slot {d : Docket} {s : State} {p : ActionPhase} (slot : s.dsu.work = some { item := .docket d, phase := p }) :
    s.stamp = stampText s.params.plantMark d := by
  rw [State.stamp, (s.dsu.workDocket_iff d).mpr ⟨_, slot, rfl⟩]

section
variable {d : Docket} {s : State} (r : LinkReply) (acts : s.dsuActs = true)
include acts

theorem execLinkClear_sends (slot : s.dsu.work = some { item := .docket d, phase := .marking .clear }) :
    exec (.linkClear r) s = .next
      (exchange (linkWord 1 0 0xFF 0) 1 r (onLink fun _ t => setPhase (.marking (.load 0)) t) s) :=
  (if_pos acts).trans (congrArg _ (if_pos (inPhase_slot slot _)))

theorem execLinkStrike_sends (slot : s.dsu.work = some { item := .docket d, phase := .marking .strike }) :
    exec (.linkStrike r) s = .next
      (exchange (linkWord 3 0 0xFF s.dsu.linkSeq) (min 255 (s.dsu.linkSeq + 1)) r
        (onLink fun _ t => setPhase (.marking .poll) t) { s with dsu := { s.dsu with strike := .running } }) :=
  (if_pos acts).trans (congrArg _ (if_pos (inPhase_slot slot _)))

theorem execLinkQuery_asks (slot : s.dsu.work = some { item := .docket d, phase := .marking .query }) :
    exec (.linkQuery r) s = .next
      (exchange (linkWord 4 0 0xFF s.dsu.linkSeq) (min 255 (s.dsu.linkSeq + 1)) r (onLink queryReply) s) :=
  (if_pos acts).trans (congrArg _ (if_pos (inPhase_slot slot _)))

theorem execLinkQuery_polls (slot : s.dsu.work = some { item := .docket d, phase := .marking .poll }) :
    exec (.linkQuery r) s = .next
      (exchange (linkWord 4 0 0xFF s.dsu.linkSeq) (min 255 (s.dsu.linkSeq + 1)) r (onLink pollReply) s) := by
  have other : ¬ s.dsu.inPhase (.marking .query) = true := by
    rw [inPhase_slot slot]
    exact Bool.false_ne_true
  exact (if_pos acts).trans (congrArg _ ((if_neg other).trans (if_pos (inPhase_slot slot _))))

theorem execLinkLoad_loads {i : Nat} (slot : s.dsu.work = some { item := .docket d, phase := .marking (.load i) }) :
    let text := stampText s.params.plantMark d
    exec (.linkLoad r) s = .next
      (exchange (linkWord 2 i (text.getD i 0x20) s.dsu.linkSeq) (min 255 (s.dsu.linkSeq + 1)) r
        (onLink fun _ t => setPhase (.marking (if i + 1 < text.length then .load (i + 1) else .query)) t) s) := by
  have due : s.dsu.loadIndex = some i := by rw [Dsu.loadIndex, slot]
  refine (if_pos acts).trans (congrArg _ ?_)
  unfold linkLoad
  rw [due, ← stamp_slot slot]
  rfl

end

/-! ### What a reply does in the sequence -/

section
variable {d : Docket} {s : State} {cmd w : BitVec 24} {next : Nat} {stopBit : Bool} {good : BitVec 24 → State → State}

/-- A good reply goes on from the unit as the exchange leaves it. -/
theorem onLink_good (passes : GoodReply cmd w stopBit) : exchange cmd next (.word w stopBit) (onLink good) s =
    good w { s with dsu := s.dsu.exchanged cmd next w } :=
  exchange_good cmd w stopBit next _ s (replyFault_good passes)

/-- A fault abandons the sequence: HELD, HALT with the fault (R172). -/
theorem markFault_slot {m : MarkStep} (c : Cause) (free : s.lif.roleConflict = false)
    (slot : s.dsu.work = some { item := .docket d, phase := .marking m }) :
    Settled d .held (some c) 3 { s with dsu := { s.dsu with strike := .stopped, halt := some c } } (markFault c s) := by
  refine markFault_settled d c s ((s.dsu.workDocket_iff d).mpr ⟨_, slot, rfl⟩) free ?_
  rw [inPhase_slot slot]
  rfl

theorem onLink_bad {m : MarkStep} {c : Cause} (free : s.lif.roleConflict = false)
    (slot : s.dsu.work = some { item := .docket d, phase := .marking m }) (fault : replyFault cmd w stopBit = some c) :
    Settled d .held (some c) 3
      { s with dsu := { s.dsu.exchanged cmd next w with strike := .stopped, halt := some c } }
      (exchange cmd next (.word w stopBit) (onLink good) s) := by
  rw [exchange_bad cmd w stopBit next _ s c fault]
  exact markFault_slot (s := { s with dsu := s.dsu.exchanged cmd next w }) c free slot

/-- What every exchange of the sequence does besides a good reply: the two faults, no reply, and a stop (R170, R172; log 7).
`x` is the strike timer as the command sets it. -/
theorem markExchange_otherwise {m : MarkStep} {i : LinkReply → Instr} {x : Timer} (free : s.lif.roleConflict = false)
    (slot : s.dsu.work = some { item := .docket d, phase := .marking m })
    (runs : ∀ r, exec (i r) s =
      .next (exchange cmd next r (onLink good) { s with dsu := { s.dsu with strike := x } })) :
    let faults := fun c : Cause => ∃ t, exec (i (.word w stopBit)) s = .next t ∧ Settled d .held (some c) 3
      { s with dsu := { s.dsu.exchanged cmd next w with strike := .stopped, halt := some c } } t
    (w = cmd → faults .markerSilent) ∧
    (w ≠ cmd → ¬ GoodReply cmd w stopBit → faults .markFault) ∧
    exec (i .silent) s = exec (i (.word cmd true)) s ∧
    ∃ reg, exec (i .stopped) s = .next
      { s with dsu := { s.dsu.exchanged cmd next reg with strike := x }, freeCount := s.freeCount + 1 } := by
  refine ⟨?_, fun other bad => ?_, by rw [runs, runs, exchange_silent], ⟨_, runs .stopped⟩⟩
  · rintro rfl
    exact ⟨_, runs _, onLink_bad (s := { s with dsu := { s.dsu with strike := x } }) free slot (replyFault_echo w stopBit)⟩
  · exact ⟨_, runs _, onLink_bad (s := { s with dsu := { s.dsu with strike := x } }) free slot (replyFault_bad other bad)⟩

/-! ### The replies to a QUERY (R171 steps 3 and 5) -/

section
variable {m : MarkStep} (slot : s.dsu.work = some { item := .docket d, phase := .marking m })
include slot

theorem queryReply_good (state : replyState w = 2) (loaded : replyLoaded w = (stampText s.params.plantMark d).length) :
    queryReply w s = { s with dsu := { s.dsu with
      work := some { item := .docket d, phase := .marking .strike }, baseCount := replyStrikes w } } := by
  have all : (replyState w == 2 && replyLoaded w == s.stamp.length) = true := by
    rw [stamp_slot slot, state, loaded]
    simp
  exact (if_pos all).trans (setPhase_slot (s := s.withDsu { s.dsu with baseCount := replyStrikes w }) slot _)

theorem queryReply_bad
    (bad : replyState w ≠ 2 ∨ replyLoaded w ≠ (stampText s.params.plantMark d).length) :
    queryReply w s = markFault .markFault s := by
  refine if_neg fun all => ?_
  rw [stamp_slot slot] at all
  simp only [Bool.and_eq_true, beq_iff_eq] at all
  exact bad.elim (· all.1) (· all.2)

end

theorem pollReply_busy (busy : replyState w ≠ 4) : pollReply w s = s := if_neg (by simpa using busy)

/-- One strike more stamps the docket; another count is a fault (R171 step 5). -/
theorem pollReply_counted (done : replyState w = 4) (count : replyStrikes w = s.dsu.baseCount + 1) :
    pollReply w s = settle .stamped none laneGood { s with dsu := { s.dsu with strike := .stopped } } :=
  (if_pos (beq_iff_eq.mpr done)).trans (if_pos (beq_iff_eq.mpr count))

theorem pollReply_miscounted (done : replyState w = 4) (count : replyStrikes w ≠ s.dsu.baseCount + 1) :
    pollReply w s = markFault .markFault s :=
  (if_pos (beq_iff_eq.mpr done)).trans (if_neg (by simpa using count))

end

/-- Settles O59: each exchange by its step; a good reply goes on, and the rest is said once for all five. -/
theorem markingLinkSequence : Obligations.MarkingLinkSequence := by
  refine ⟨linkWord_toNat, fun w stopBit d s role free docket => ?_⟩
  intro text seq clear load strike query after good at' sent faults
  have acts := (dsuActs_iff s).mpr ⟨role, free⟩
  refine ⟨fun slot passes => ?_, fun i slot passes => ?_, fun slot passes state loaded => ?_,
    fun slot passes bad => ?_, fun slot passes => ?_, fun slot passes busy => ?_, fun slot passes done count => ?_,
    fun slot passes done count => ?_, fun k i cmd next slot step => ?_, fun slot running => ?_, fun still => ?_⟩
  · rw [execLinkClear_sends _ acts slot, onLink_good passes]
    exact congrArg _ (setPhase_slot (s := { s with dsu := sent clear 1 w }) slot _)
  · rw [execLinkLoad_loads _ acts slot, onLink_good passes]
    exact congrArg _ (setPhase_slot (s := { s with dsu := sent (load i) after w }) slot _)
  · rw [execLinkQuery_asks _ acts slot, onLink_good passes]
    exact congrArg _ (queryReply_good (s := { s with dsu := sent query after w }) slot state loaded)
  · refine ⟨_, execLinkQuery_asks _ acts slot, ?_⟩
    rw [onLink_good passes, queryReply_bad (s := { s with dsu := s.dsu.exchanged query after w }) slot bad]
    exact markFault_slot (s := { s with dsu := sent query after w }) _ free slot
  · rw [execLinkStrike_sends _ acts slot, onLink_good passes]
    exact congrArg _ (setPhase_slot (s := { s with dsu := { sent strike after w with strike := .running } }) slot _)
  · rw [execLinkQuery_polls _ acts slot, onLink_good passes, pollReply_busy busy]
    rfl
  · refine ⟨_, execLinkQuery_polls _ acts slot, ?_⟩
    rw [onLink_good passes, pollReply_counted (s := { s with dsu := s.dsu.exchanged query after w }) done count]
    exact settle_slot .stamped none laneGood free
      (s := { s with dsu := { sent query after w with strike := .stopped } }) slot (fun no => nomatch no)
  · refine ⟨_, execLinkQuery_polls _ acts slot, ?_⟩
    rw [onLink_good passes, pollReply_miscounted (s := { s with dsu := s.dsu.exchanged query after w }) done count]
    exact markFault_slot (s := { s with dsu := sent query after w }) _ free slot
  · simp only [List.mem_cons, List.not_mem_nil, or_false, Prod.mk.injEq] at step
    rcases step with (⟨rfl, rfl, rfl, rfl⟩ | ⟨rfl, rfl, rfl, rfl⟩ | ⟨rfl, rfl, rfl, rfl⟩ | ⟨rfl, rfl, rfl, rfl⟩) |
      ⟨j, rfl, rfl, rfl, rfl⟩
    · exact markExchange_otherwise free slot fun r => execLinkClear_sends r acts slot
    · exact markExchange_otherwise free slot fun r => execLinkQuery_asks r acts slot
    · exact markExchange_otherwise free slot fun r => execLinkStrike_sends r acts slot
    · exact markExchange_otherwise free slot fun r => execLinkQuery_polls r acts slot
    · exact markExchange_otherwise free slot fun r => execLinkLoad_loads r acts slot
  · have due : (s.dsu.inPhase (.marking .poll) && s.dsu.strike == .running) = true := by
      rw [inPhase_slot slot, running]
      rfl
    exact ⟨_, (if_pos acts).trans (congrArg _ (if_pos due)), markFault_slot _ free slot⟩
  · have none' : ¬ (s.dsu.inPhase (.marking .poll) && s.dsu.strike == .running) = true := by
      simp [still]
    exact (if_pos acts).trans (congrArg _ (if_neg none'))

end Sys2Proof.Machine
end

section
/-! The punch, the lanes, the record output, the calls and the arrival timers of DISPOSE, with its stop and the CLEAR of its
panel (R162, R165, R168, R173 to R178). -/

namespace Sys2Proof.Machine

/-! ### The arrival queue by identity (R159) -/

/-- Of distinct identities, the docket with the identity of the one in place `i` is that one. -/
theorem eraseP_identity {q : List Arrival} {i : Nat} {a : Arrival} (distinct : (q.map Arrival.identity).Nodup)
    (at' : q[i]? = some a) :
    q.eraseP (fun x => x.docket.sameIdentity a.docket.mfr a.docket.serial) = q.eraseIdx i := by
  obtain ⟨lt, is⟩ := List.getElem?_eq_some_iff.mp at'
  have first : q.findIdx? (fun x => x.docket.sameIdentity a.docket.mfr a.docket.serial) = some i := by
    refine List.findIdx?_eq_some_iff_getElem.mpr ⟨lt, ?_, fun j before => ?_⟩
    · rw [is]
      exact (Docket.sameIdentity_iff ..).mpr ⟨rfl, rfl⟩
    · intro same
      obtain ⟨mfr, serial⟩ := (Docket.sameIdentity_iff ..).mp same
      have identity : q[j].identity = q[i].identity := by
        rw [is, Arrival.identity, mfr, serial]
        rfl
      have places := (List.Nodup.getElem_inj_iff distinct (i := j) (j := i)
        (hi := by rw [List.length_map]; omega) (hj := by rw [List.length_map]; omega)).mp
        (by simpa only [List.getElem_map] using identity)
      omega
  rw [List.eraseP_eq_eraseIdx, first]

section
variable {s : State}

/-! ### The record output (R176, R178) -/

/-- The state once the port has sent a line that it held back until REC_CTS read active, with `u` as the unit (R176). -/
def lineGone (l : RecLine) (u : Dsu) (s : State) : State :=
  { s with ports := { s.ports with recSent := some (recordText l ++ [0x0A]), recCts := true }, dsu := u }

section
variable (acts : s.dsuActs = true) {l : RecLine} {rest : List RecLine} (buffer : s.dsu.recBuffer = l :: rest)
include acts

theorem execRecordLineSent_held :
    exec (.recordLineSent false) s = .next { s with ports := { s.ports with recCts := false } } := if_pos acts

theorem execRecordLineSent_none (empty : s.dsu.recBuffer = []) :
    exec (.recordLineSent true) s = .next { s with ports := { s.ports with recCts := true } } := by
  refine (if_pos acts).trans (congrArg _ ?_)
  show lineSent (s.withPorts _) = _
  rw [lineSent, State.withPorts_dsu, empty]
  rfl

include buffer

theorem execRecordLineSent_last (none' : s.dsu.recWaiters = []) :
    exec (.recordLineSent true) s = .next (lineGone l { s.dsu with recBuffer := rest } s) := by
  refine (if_pos acts).trans (congrArg _ ?_)
  show lineSent (s.withPorts _) = _
  rw [lineSent, State.withPorts_dsu, buffer]
  dsimp only
  rw [State.withPorts_dsu, State.withPorts_dsu, none']
  rfl

theorem execRecordLineSent_next {w : Waiter} {more : List Waiter} (waits : s.dsu.recWaiters = w :: more) :
    exec (.recordLineSent true) s = .next (finishLine w
      (lineGone l { s.dsu with recBuffer := rest ++ [w.line], recWaiters := more } s)) := by
  refine (if_pos acts).trans (congrArg _ ?_)
  show lineSent (s.withPorts _) = _
  rw [lineSent, State.withPorts_dsu, buffer]
  dsimp only
  rw [State.withPorts_dsu, State.withPorts_dsu, waits]
  rfl

end

theorem finishLine_noDocket (w : Waiter) (s : State) (other : w.source = .stray ∨ ∃ a, w.source = .card a) :
    finishLine w s = s := by
  unfold finishLine
  rcases other with stray | ⟨a, card⟩
  · rw [stray]
  · rw [card]

/-- The docket in work is discarded when its line enters the buffer; once its cylinder has left, the slot is empty (R168,
R178). -/
theorem finishLine_inWork {d : Docket} {part : DisposalPart} {x : Work} (free : s.lif.roleConflict = false)
    (has : d.disposal = some part) (work : s.dsu.work = some x) :
    finishLine { line := .docket d, source := .work } s =
      { s with
        dsu := { s.dsu with work := if x.phase = .gone then none else some { x with item := .finished } }
        txq := notedQueue d part s } := by
  have discarded : (s.dsu.work.bind Work.discarded) =
      if x.phase = .gone then none else some { x with item := .finished } := by
    rw [work]
    simp [Work.discarded]
  show queueNote d (s.withDsu { s.dsu with work := s.dsu.work.bind Work.discarded }) = _
  rw [discarded]
  exact queueNote_noted d part (s.withDsu _) has free

/-- A MISSING docket leaves the queue when its line enters the buffer (R178). -/
theorem finishLine_missing {i : Nat} {a : Arrival} {part : DisposalPart} (free : s.lif.roleConflict = false)
    (distinct : (s.dsu.arrival.map Arrival.identity).Nodup) (at' : s.dsu.arrival[i]? = some a)
    (has : a.docket.disposal = some part) :
    finishLine { line := .docket a.docket, source := .queued a.docket.mfr a.docket.serial } s =
      { s with dsu := { s.dsu with arrival := s.dsu.arrival.eraseIdx i }, txq := notedQueue a.docket part s } := by
  show queueNote a.docket (s.withDsu { s.dsu with arrival := s.dsu.arrival.eraseP _ }) = _
  rw [eraseP_identity distinct at']
  exact queueNote_noted a.docket part (s.withDsu _) has free

/-! ### The arrival timers (R162) -/

section
variable {i : Nat} {a : Arrival} (at' : s.dsu.arrival[i]? = some a)
include at'

/-- The line of a docket marked MISSING enters the buffer, and the docket leaves (R162, R176, R178). -/
theorem finishMissing_enters (free : s.lif.roleConflict = false)
    (distinct : (s.dsu.arrival.map Arrival.identity).Nodup) (room : s.dsu.recBuffer.length < 4) :
    finishMissing i s = { s with
      dsu := { s.dsu with
        arrival := s.dsu.arrival.eraseIdx i, recBuffer := s.dsu.recBuffer ++ [.docket a.lost.docket] }
      txq := notedQueue a.lost.docket { disposition := .missing, cause := some .missing } s } := by
  obtain ⟨lt, -⟩ := List.getElem?_eq_some_iff.mp at'
  unfold finishMissing
  rw [at']
  refine (if_pos room).trans ?_
  refine (finishLine_missing (s := { s with dsu := { s.dsu with
    arrival := s.dsu.arrival.set i a.lost, recBuffer := s.dsu.recBuffer ++ [.docket a.lost.docket] } })
    (i := i) (a := a.lost) free ?_ ?_ rfl).trans ?_
  · rw [← identities_set_lost _ i a at'] at distinct
    exact distinct
  · simp [lt]
  · dsimp only
    rw [List.eraseIdx_set_eq]
    rfl

/-- Or the line waits, and the docket keeps its place marked MISSING (R162, R176). -/
theorem finishMissing_waits (full : 4 ≤ s.dsu.recBuffer.length) :
    finishMissing i s = { s with dsu := { s.dsu with
      arrival := s.dsu.arrival.set i a.lost
      recWaiters := s.dsu.recWaiters ++
        [{ line := .docket a.lost.docket, source := .queued a.lost.docket.mfr a.lost.docket.serial }] } } := by
  unfold finishMissing
  rw [at']
  refine (if_neg (Nat.not_lt.mpr full)).trans ?_
  rw [addWaiter_queued]
  rfl

theorem arrivalExpired_iff : s.arrivalExpired i = true ↔
    a.missing = false ∧ s.params.arrivalTime * 20 ≤ a.ticks := by
  have second : Config.ticksPerSecond = 20 := rfl
  simp [State.arrivalExpired, at', second]

end

/-! ### The calls (R165) -/

/-- The call timer's expiry withdraws the call, which waits for the end of its sending (R48, R165). -/
theorem callExpiry_running {c : Call} (call : s.dsu.call = some c) (running : c.timer = .running) :
    callExpiry s = { s with
      dsu := { s.dsu with call :=
        if c.returnPhase = false ∧ s.callSending = true then some { c with timer := .expired } else none }
      txq := s.txq.filterMap fun x =>
        if x.kind ≠ .releaseCall then some x
        else if x.contending = true ∧ s.sending = true then some { x with withdraw := true } else none } := by
  unfold callExpiry
  rw [call]
  dsimp only
  rw [if_pos (beq_iff_eq.mpr running), withdrawMsg_eq]
  simp only [State.withDsu, Bool.and_eq_true, Bool.not_eq_true']
  rfl

end

end Sys2Proof.Machine
end

section
/-! The stop of DISPOSE and its end, in every phase (R168, R173, R175), and the CLEAR of its panel (R174). -/

namespace Sys2Proof.Machine

section
variable {s : State}

/-! ### The punch and the lanes (R168, R173) -/

section
variable (acts : s.dsuActs = true)
include acts

theorem execPunchDone_punched {d : Docket} (slot : s.dsu.work = some { item := .docket d, phase := .punching }) :
    exec .punchDone s = .next
      (settle .scrapped none laneScrap { s with dsu := { s.dsu with punchTimer := .stopped } }) :=
  (if_pos acts).trans (congrArg _ (if_pos (inPhase_slot slot _)))

theorem execPunchTimeout_fault {w : Work} (slot : s.dsu.work = some w) (punching : w.phase = .punching)
    (running : s.dsu.punchTimer = .running) : exec .punchTimeout s = .next
      { s with dsu := { s.dsu with
        work := some { w with phase := .punchRetry }, punchTimer := .stopped, halt := some .punchFault } } := by
  have due : (s.dsu.inPhase .punching && s.dsu.punchTimer == .running) = true := by
    rw [inPhase_slot slot, punching, running]
    rfl
  refine (if_pos acts).trans (congrArg _ ((if_pos due).trans ?_))
  rw [setPhase_slot slot]
  rfl

theorem execPunch_elsewhere (other : s.dsu.inPhase .punching = false) :
    exec .punchDone s = .next s ∧ exec .punchTimeout s = .next s := by
  have none' : ¬ (s.dsu.inPhase .punching && s.dsu.punchTimer == .running) = true := by simp [other]
  exact ⟨(if_pos acts).trans (congrArg _ (if_neg (Bool.eq_false_iff.mp other))),
    (if_pos acts).trans (congrArg _ (if_neg none'))⟩

/-- A docket whose line waits keeps the slot when its cylinder has left (R168). -/
theorem execLaneReleaseEnd_docket {d : Docket} (slot : s.dsu.work = some { item := .docket d, phase := .lane }) :
    exec .laneReleaseEnd s = .next
      { s with dsu := { s.dsu with work := some { item := .docket d, phase := .gone } } } := by
  refine (if_pos acts).trans (congrArg _ ?_)
  rw [laneEnd, slot]
  exact setPhase_slot slot .gone

theorem execLaneReleaseEnd_empty {i : WorkItem} (slot : s.dsu.work = some { item := i, phase := .lane })
    (noDocket : i = .finished ∨ ∃ m n, i = .stray m n) :
    exec .laneReleaseEnd s = .next { s with dsu := { s.dsu with work := none } } := by
  refine (if_pos acts).trans (congrArg _ ?_)
  rw [laneEnd, slot]
  rcases noDocket with rfl | ⟨m, n, rfl⟩ <;> rfl

end

/-! ### The stop (R175) -/

/-- The unit as a stop leaves its outputs and timers. -/
def Dsu.halted (u : Dsu) : Dsu :=
  { u with stopCopy := true, punchPulse := false, punchTimer := .stopped, strike := .stopped }

theorem execStopReported_dispose (role : s.role = some .dispose) (free : s.lif.roleConflict = false)
    (clear : s.ilk.stopFlag = false) : exec .stopReported s = .next (disposeStop (stopMarked true s)) := by
  show execStopReported s = _
  simp only [execStopReported, role, clear, stopReported, free, Bool.false_eq_true, if_false]
  rfl

theorem execStopEnded_dispose (role : s.role = some .dispose) (free : s.lif.roleConflict = false)
    (stands : s.ilk.stopFlag = true) : exec .stopEnded s = .next (disposeResume (stopMarked false s)) := by
  show execStopEnded s = _
  simp only [execStopEnded, role, stands, stopEnded, free, Bool.false_eq_true, if_false, if_true]
  rfl

theorem disposeStop_empty (empty : s.dsu.work = none) : disposeStop s = { s with dsu := s.dsu.halted } := by
  simp only [disposeStop, State.withDsu, Dsu.halted, empty]

section
variable {w : Work} (slot : s.dsu.work = some w)
include slot

/-- The marking sequence is abandoned (R175). -/
theorem disposeStop_marking {k : MarkStep} (marking : w.phase = .marking k) :
    disposeStop s = settle .held (some .estop) laneHold { s with dsu := s.dsu.halted } := by
  simp only [disposeStop, State.withDsu, Dsu.halted, slot, marking]

/-- A punch or a lane movement in progress is owed (R168, R173, R175). -/
theorem disposeStop_punching (punching : w.phase = .punching) : disposeStop s =
    { s with dsu := { s.dsu.halted with work := some { w with phase := .punchOwed } } } := by
  simp only [disposeStop, State.withDsu, Dsu.halted, setPhase, slot, punching, Option.map_some]

theorem disposeStop_lane (lane : w.phase = .lane) : disposeStop s =
    { s with dsu := { s.dsu.halted with work := some { w with phase := .laneOwed } } } := by
  simp only [disposeStop, State.withDsu, Dsu.halted, setPhase, slot, lane, Option.map_some]

theorem disposeStop_stands (still : w.phase ∈ [.gone, .punchRetry, .punchOwed, .laneOwed]) :
    disposeStop s = { s with dsu := s.dsu.halted } := by
  simp only [List.mem_cons, List.not_mem_nil, or_false] at still
  rcases still with is | is | is | is <;> simp only [disposeStop, State.withDsu, Dsu.halted, slot, is]

/-- At the end of the stop an owed pulse starts in full (R168, R173, R175). -/
theorem disposeResume_punch (owed : w.phase = .punchOwed) : disposeResume s =
    { s with dsu := { s.dsu with
      stopCopy := false, work := some { w with phase := .punching }, punchPulse := true, punchTimer := .running } } := by
  have at' : ({ s.dsu with stopCopy := false } : Dsu).inPhase .punchOwed = true := by
    rw [Dsu.inPhase, slot]
    exact beq_iff_eq.mpr owed
  exact (if_pos at').trans (startPunch_slot (s := { s with dsu := { s.dsu with stopCopy := false } }) slot)

theorem disposeResume_lane (owed : w.phase = .laneOwed) : disposeResume s =
    { s with dsu := { s.dsu with stopCopy := false, work := some { w with phase := .lane } } } := by
  have other : ¬ ({ s.dsu with stopCopy := false } : Dsu).inPhase .punchOwed = true := by
    rw [Dsu.inPhase, slot]
    simp [owed]
  have at' : ({ s.dsu with stopCopy := false } : Dsu).inPhase .laneOwed = true := by
    rw [Dsu.inPhase, slot]
    exact beq_iff_eq.mpr owed
  exact (if_neg other).trans ((if_pos at').trans
    (setPhase_slot (s := { s with dsu := { s.dsu with stopCopy := false } }) slot _))

end

/-- With nothing owed the stop ends and the cylinder stands. -/
theorem disposeResume_stands (punch : s.dsu.inPhase .punchOwed = false) (lane : s.dsu.inPhase .laneOwed = false) :
    disposeResume s = { s with dsu := { s.dsu with stopCopy := false } } :=
  (if_neg (Bool.eq_false_iff.mp punch)).trans (if_neg (Bool.eq_false_iff.mp lane))

/-! ### CLEAR at the panel (R174) -/

theorem execDisposeClear_eq (r : LinkReply) (role : s.role = some .dispose) :
    exec (.disposeClear r) s = .next (panelClear r s) := if_pos (beq_iff_eq.mpr role)

theorem panelClear_unarmed (r : LinkReply) (off : s.dsu.clearArmed = false) : panelClear r s = s :=
  if_neg (Bool.eq_false_iff.mp off)

/-- The state once the CLEAR edge is consumed (R88, R174). -/
def clearSeen (s : State) : State :=
  { s with inputs := { s.inputs with clear := true }, dsu := { s.dsu with clearArmed := false } }

section
variable (r : LinkReply) (armed : s.dsu.clearArmed = true) (free : s.lif.roleConflict = false)
include armed free

theorem panelClear_running (no : s.dsu.stopCopy = true ∨ s.dsu.halt = none) : panelClear r s = clearSeen s := by
  have other : ¬ (disposeState s == .halt) = true := by
    rw [beq_iff_eq, disposeState_halt_iff free]
    rintro ⟨run, halted⟩
    rcases no with stop | live
    · rw [stop] at run
      cases run
    · rw [live] at halted
      cases halted
  exact (if_pos armed).trans (if_neg other)

/-- In HALT the edge sends CLEAR to the marking head (R174). -/
theorem panelClear_asks (run : s.dsu.stopCopy = false) (halted : s.dsu.halt.isSome = true) :
    panelClear r s = exchange (linkWord 1 0 0xFF 0) 1 r panelReply (clearSeen s) := by
  have halt : (disposeState s == .halt) = true := beq_iff_eq.mpr ((disposeState_halt_iff free).mpr ⟨run, halted⟩)
  exact (if_pos armed).trans (if_pos halt)

end

/-- A good reply ends HALT (R174). -/
theorem panelReply_good (w : BitVec 24) (other : s.dsu.inPhase .punchRetry = false) :
    panelReply (.ok w) s = { s with dsu := { s.dsu with halt := none } } := if_neg (Bool.eq_false_iff.mp other)

/-- A punch that waits is tried again with it (R173, R174). -/
theorem panelReply_retries (w : BitVec 24) {x : Work} (slot : s.dsu.work = some x) (waits : x.phase = .punchRetry) :
    panelReply (.ok w) s = { s with dsu := { s.dsu with
      halt := none, work := some { x with phase := .punching }, punchPulse := true, punchTimer := .running } } := by
  have at' : ({ s.dsu with halt := none } : Dsu).inPhase .punchRetry = true := by
    rw [Dsu.inPhase, slot]
    exact beq_iff_eq.mpr waits
  exact (if_pos at').trans (startPunch_slot (s := { s with dsu := { s.dsu with halt := none } }) slot)

/-! ### The exchange of the CLEAR (R170, R174) -/

section
variable {w : BitVec 24} {stopBit : Bool} (role : s.role = some .dispose) (armed : s.dsu.clearArmed = true)
  (free : s.lif.roleConflict = false) (run : s.dsu.stopCopy = false) (halted : s.dsu.halt.isSome = true)
include role armed free run halted

theorem execDisposeClear_asks (r : LinkReply) : exec (.disposeClear r) s =
    .next (exchange (linkWord 1 0 0xFF 0) 1 r panelReply (clearSeen s)) := by
  rw [execDisposeClear_eq r role, panelClear_asks r armed free run halted]

theorem execDisposeClear_good (passes : GoodReply (linkWord 1 0 0xFF 0) w stopBit) :
    exec (.disposeClear (.word w stopBit)) s = .next (panelReply (.ok w)
      { clearSeen s with dsu := (clearSeen s).dsu.exchanged (linkWord 1 0 0xFF 0) 1 w }) := by
  rw [execDisposeClear_asks role armed free run halted, exchange_good _ _ _ _ _ _ (replyFault_good passes)]
  rfl

/-- Another reply keeps HALT, with its fault (R174). -/
theorem execDisposeClear_fault {c : Cause} (fault : replyFault (linkWord 1 0 0xFF 0) w stopBit = some c) :
    exec (.disposeClear (.word w stopBit)) s = .next { clearSeen s with
      dsu := { (clearSeen s).dsu.exchanged (linkWord 1 0 0xFF 0) 1 w with halt := some c } } := by
  rw [execDisposeClear_asks role armed free run halted, exchange_bad _ _ _ _ _ _ _ fault]
  rfl

end

end

end Sys2Proof.Machine
end

section
/-! The statement about the punch, the lanes, the record output, the calls, the arrival timers, the stop and the CLEAR of
DISPOSE (R162, R165, R168, R173 to R178). -/

namespace Sys2Proof.Machine

/-- Settles O60: the rules about the commands of the unit one after another; the stop and its end by the phase of the
cylinder in work, the CLEAR by the reply. -/
theorem punchLaneAndRecord : Obligations.PunchLaneAndRecord := by
  intro s role free at' stopped
  have acts := (dsuActs_iff s).mpr ⟨role, free⟩
  refine ⟨fun d slot => ⟨?punchDone, execPunchTimeout_fault acts slot rfl⟩, execPunch_elsewhere acts, if_pos acts,
    fun d => execLaneReleaseEnd_docket acts, fun i => execLaneReleaseEnd_empty acts, execRecordLineSent_held acts,
    fun l rest => execRecordLineSent_last acts, fun l rest w more buffer waits => ?lineNext,
    execRecordLineSent_none acts,
    fun c call running => (if_pos acts).trans (congrArg _ (callExpiry_running call running)),
    fun i a place waits expired distinct => ?missing, fun i a place early => ?notYet, fun off => ?stop,
    fun stands => ?stopEnds, fun r off => ?unarmed, fun armed => ⟨fun r no => ?running, fun run halted => ?asks⟩⟩
  case punchDone =>
    exact ⟨_, execPunchDone_punched acts slot, settle_slot .scrapped none laneScrap free
      (s := { s with dsu := { s.dsu with punchTimer := .stopped } }) slot (fun no => nomatch no)⟩
  case lineNext =>
    rw [execRecordLineSent_next acts buffer waits]
    refine ⟨fun other => congrArg _ (finishLine_noDocket _ _ other), ?_, ?_⟩
    · rintro d part x rfl has work
      exact congrArg _ (finishLine_inWork (s := lineGone ..) free has work)
    · rintro i a part place distinct has rfl
      exact congrArg _ (finishLine_missing (s := lineGone ..) free ((arrivalDistinct_iff s).mp distinct) place has)
  case missing =>
    have due : (s.dsuActs && s.arrivalExpired i) = true := by
      rw [acts, (arrivalExpired_iff place).mpr ⟨waits, expired⟩]
      rfl
    refine ⟨finishMissing i s, if_pos due, fun room => ?_, fun full => ?_, ?_⟩
    · rw [finishMissing_enters place free ((arrivalDistinct_iff s).mp distinct) room]
      exact ⟨rfl, rfl⟩
    · rw [finishMissing_waits place full]
      exact ⟨rfl, rfl⟩
    · rcases Nat.lt_or_ge s.dsu.recBuffer.length 4 with room | full
      · rw [finishMissing_enters place free ((arrivalDistinct_iff s).mp distinct) room]
      · rw [finishMissing_waits place full]
  case notYet =>
    refine if_neg fun due => ?_
    obtain ⟨-, expired⟩ := (arrivalExpired_iff place).mp (Bool.and_eq_true_iff.mp due).2
    omega
  case stop =>
    rw [execStopReported_dispose role free off]
    refine ⟨fun empty => ?_, fun d k slot => ⟨_, rfl, ?_⟩, fun d slot => ?_, fun w slot lane => ?_,
      fun w slot still => ?_⟩
    · rw [disposeStop_empty (s := stopMarked true s) empty]
      rfl
    · rw [disposeStop_marking (s := stopMarked true s) slot rfl]
      exact settle_slot .held (some .estop) laneHold (s := { stopMarked true s with dsu := stopped }) free slot
        (fun no => nomatch no)
    · rw [disposeStop_punching (s := stopMarked true s) slot rfl]
      rfl
    · rw [disposeStop_lane (s := stopMarked true s) slot lane]
      rfl
    · rw [disposeStop_stands (s := stopMarked true s) slot still]
      rfl
  case stopEnds =>
    rw [execStopEnded_dispose role free stands]
    refine ⟨fun empty => ?_, fun d slot => ?_, fun w slot owed => ?_, fun w slot noPunch noLane => ?_⟩
    · have nowhere (p : ActionPhase) : s.dsu.inPhase p = false := by rw [Dsu.inPhase, empty]
      exact congrArg _ (disposeResume_stands (s := stopMarked false s) (nowhere _) (nowhere _))
    · exact congrArg _ (disposeResume_punch (s := stopMarked false s) slot rfl)
    · exact congrArg _ (disposeResume_lane (s := stopMarked false s) slot owed)
    · exact congrArg _ (disposeResume_stands (s := stopMarked false s)
        ((inPhase_slot slot _).trans (beq_eq_false_iff_ne.mpr noPunch))
        ((inPhase_slot slot _).trans (beq_eq_false_iff_ne.mpr noLane)))
  case unarmed => rw [execDisposeClear_eq r role, panelClear_unarmed r off]
  case running =>
    rw [execDisposeClear_eq r role, panelClear_running r armed free no]
    rfl
  case asks =>
    have asks := execDisposeClear_asks role armed free run halted
    have echo (b : Bool) : exec (.disposeClear (.word (linkWord 1 0 0xFF 0) b)) s = _ :=
      execDisposeClear_fault role armed free run halted (replyFault_echo _ b)
    have good {w : BitVec 24} (other : w ≠ linkWord 1 0 0xFF 0) (low : 1 ≤ replyState w) (high : replyState w ≤ 4)
        (seq : replySeq w = 0) := execDisposeClear_good role armed free run halted (stopBit := true)
      ⟨other, rfl, low, high, seq⟩
    refine ⟨fun w other low high seq punch => ?_, fun w d other low high seq slot => ?_, ?_, echo,
      fun w b other bad => ?_, ⟨_, asks .stopped⟩⟩
    · rw [good other low high seq]
      exact congrArg _ (panelReply_good (s := { clearSeen s with dsu := (clearSeen s).dsu.exchanged .. }) w punch)
    · rw [good other low high seq]
      exact congrArg _ (panelReply_retries (s := { clearSeen s with dsu := (clearSeen s).dsu.exchanged .. }) w slot rfl)
    · rw [asks, exchange_silent, ← asks]
      exact echo true
    · refine execDisposeClear_fault role armed free run halted (replyFault_bad other ?_)
      rintro ⟨-, stop, low, high, seq⟩
      rcases bad with rfl | below | above | apart
      · cases stop
      · omega
      · omega
      · exact apart seq

end Sys2Proof.Machine
end

section
/-! Start-up (R180 to R184): the two resets, the straps at a release, the checks of a profile image in their order, and
the station that a good image starts. -/

namespace Sys2Proof.Machine

/-! ### Resets (R180, R81) -/

theorem reset_entry (a : Addr) : State.reset.entry a = {} :=
  List.getD_replicate ({} : PvtEntry) (n := 16) (y := {}) a.isLt

theorem reset_historySet (h : BitVec 16) : historySet State.reset.history h = {} :=
  List.getD_replicate ({} : HistSet) (n := 16) (y := {}) (h.extractLsb' 0 4).isLt

theorem execPinReset_held {s : State} (held : s.loader.phase = .reset) (power : s.loader.cause = .powerOn) :
    exec .pinReset s = .next s :=
  if_pos (by rw [held, power]; rfl)

theorem execPinReset_clears {s : State} (other : ¬ (s.loader.phase = .reset ∧ s.loader.cause = .powerOn)) :
    exec .pinReset s = .next ((resetState .pin s).withHistory (rebaseHistory s.history)) :=
  if_neg (by simpa using other)

/-- Settles O11: a PIN event is one of the two cases, by the reset that is held. -/
theorem resetsClearTheStation : Obligations.ResetsClearTheStation :=
  ⟨fun _ => rfl, fun _ => execPinReset_clears, fun _ => execPinReset_held⟩

/-- Settles O3: the entries of the view table and the sets of the history are the same at every index; every other block
is a value. -/
theorem resetHoldsTheSpecValues : Obligations.ResetHoldsTheSpecValues := by
  refine ⟨⟨rfl, rfl, rfl⟩, ⟨rfl, rfl, rfl, rfl, rfl, rfl, rfl⟩, fun a => ?entry, ⟨rfl, rfl, rfl⟩, ?intake,
    fun h one => ?history, ?outputs, ?sequencer, ⟨rfl, rfl, rfl⟩, ?measurement, ?interlock, ?disposal, rfl⟩
  case entry => rw [reset_entry]; exact ⟨rfl, rfl, rfl⟩
  case history => rw [reset_historySet]; cases one <;> exact ⟨rfl, rfl⟩
  case intake => refine ⟨rfl, rfl, rfl, rfl, rfl, rfl, rfl, rfl, rfl, rfl, rfl, rfl, fun p => ?_⟩; cases p <;> rfl
  case outputs => decide
  case sequencer => decide
  case measurement => decide
  case interlock => decide
  case disposal => decide

/-! ### The straps at a release (R181) -/

theorem Role.ofCode_none_iff (r : BitVec 2) : Role.ofCode r = none ↔ r = 3 := by
  revert r
  decide

section
variable {s : State} (a : Addr) {r : BitVec 2} (high : Bool)

theorem execResetRelease_elsewhere (other : s.loader.phase ≠ .reset) : exec (.resetRelease a r high) s = .next s :=
  if_neg (mt beq_iff_eq.mp other)

theorem execResetRelease_noRole (held : s.loader.phase = .reset) (noRole : Role.ofCode r = none) :
    exec (.resetRelease a r high) s = .next { s with loader := { s.loader with
      straps := { addr := a, role := r, cellHigh := high }, phase := .startupFault, fault := some .roleStrap } } :=
  (if_pos (beq_iff_eq.mpr held)).trans (congrArg _ (if_pos (Option.isNone_iff_eq_none.mpr noRole)))

theorem execResetRelease_reads (held : s.loader.phase = .reset) (station : Role.ofCode r ≠ none) :
    exec (.resetRelease a r high) s = .next { s with loader := { s.loader with
      straps := { addr := a, role := r, cellHigh := high }, phase := .reading, readCount := 0 } } :=
  (if_pos (beq_iff_eq.mpr held)).trans (congrArg _ (if_neg (mt Option.isNone_iff_eq_none.mp station)))

end

/-! ### The checks of an image (R182) -/

/-- The state once a read is counted, at the CRC check (log 17). -/
def readCounted (s : State) : State := { s with loader := { s.loader with readCount := s.loader.readCount + 1 } }

section
variable {r : Role} {im : List Byte} (seat clear : Bool) {s : State}

theorem execProfileReadComplete_reads (reading : s.loader.phase = .reading)
    (role : Role.ofCode s.loader.straps.role = some r) :
    exec (.profileReadComplete im seat clear) s = .next (readImage r im seat clear s) := by
  show execProfileReadComplete im seat clear s = _
  unfold execProfileReadComplete
  rw [reading, role]

theorem readImage_empty (erased : imageFormat im = 0xFFFF ∨ imageFormat im = 0) :
    readImage r im seat clear s = enterFault .noProfile s :=
  if_pos (by simpa using erased)

theorem readImage_otherFormat (full : imageFormat im ≠ 0xFFFF) (zero : imageFormat im ≠ 0)
    (other : imageFormat im ≠ 1) :
    readImage r im seat clear s = enterFault .profileFormat s :=
  (if_neg (by simp [full, zero])).trans (if_pos (bne_iff_ne.mpr other))

/-- An image of format 1 meets the check of its length. -/
theorem readImage_format (one : imageFormat im = 1) : readImage r im seat clear s =
    if imageLength im < 8 ∨ 1024 < imageLength im then enterFault .profileFormat s
    else if imageCrcOk im then checkImage r im seat clear (readCounted s)
    else if s.loader.readCount = 0 then readCounted s
    else enterFault .profileCrc (readCounted s) := by
  simp [readImage, one, readCounted, State.withLoader]

theorem readImage_badLength (one : imageFormat im = 1) (bad : imageLength im < 8 ∨ 1024 < imageLength im) :
    readImage r im seat clear s = enterFault .profileFormat s :=
  (readImage_format seat clear one).trans (if_pos bad)

section
variable (one : imageFormat im = 1) (low : 8 ≤ imageLength im) (high : imageLength im ≤ 1024)
include one low high

theorem readImage_sized : readImage r im seat clear s =
    if imageCrcOk im then checkImage r im seat clear (readCounted s)
    else if s.loader.readCount = 0 then readCounted s
    else enterFault .profileCrc (readCounted s) :=
  (readImage_format seat clear one).trans (if_neg (by omega))

theorem readImage_crcOk (crc : imageCrcOk im = true) :
    readImage r im seat clear s = checkImage r im seat clear (readCounted s) :=
  (readImage_sized seat clear one low high).trans (if_pos crc)

/-- The first CRC failure leads to a second read. -/
theorem readImage_crcFirst (crc : imageCrcOk im = false) (first : s.loader.readCount = 0) :
    readImage r im seat clear s = readCounted s := by
  rw [readImage_sized seat clear one low high, if_neg (Bool.eq_false_iff.mp crc), if_pos first]

theorem readImage_crcAgain (crc : imageCrcOk im = false) (again : s.loader.readCount ≠ 0) :
    readImage r im seat clear s = enterFault .profileCrc (readCounted s) := by
  rw [readImage_sized seat clear one low high, if_neg (Bool.eq_false_iff.mp crc), if_neg again]

end

theorem checkImage_otherRole (other : imageByte im 4 ≠ 0#6 ++ s.loader.straps.role) :
    checkImage r im seat clear s = enterFault .profileRole s :=
  if_pos (bne_iff_ne.mpr other)

section
variable (own : imageByte im 4 = 0#6 ++ s.loader.straps.role)
include own

theorem checkImage_own : checkImage r im seat clear s =
    match imageItems im with
    | none => enterFault .profileFormat s
    | some items => takeProfile r items seat clear s :=
  if_neg (mt bne_iff_ne.mp (not_not.mpr own))

theorem checkImage_brokenItems (broken : imageItems im = none) :
    checkImage r im seat clear s = enterFault .profileFormat s := by
  rw [checkImage_own seat clear own, broken]

theorem checkImage_good {items : List (Nat × List Byte)} (good : imageItems im = some items) :
    checkImage r im seat clear s = takeProfile r items seat clear s := by
  rw [checkImage_own seat clear own, good]

end

end

/-- Settles O12: the release by the strap ROLE, and the image by the first check that it fails. -/
theorem strapsAndProfileChecks : Obligations.StrapsAndProfileChecks := by
  refine ⟨fun a r high s => ⟨fun held three => ?_, fun held station => ?_, execResetRelease_elsewhere a high, rfl⟩,
    fun r im seat clear s reading role => ?_⟩
  · exact execResetRelease_noRole a high held ((Role.ofCode_none_iff r).mpr three)
  · exact execResetRelease_reads a high held (mt (Role.ofCode_none_iff r).mp station)
  · dsimp only
    rw [execProfileReadComplete_reads seat clear reading role]
    refine ⟨fun erased => ?_, fun full zero other => ?_, fun one bad => ?_, fun one low high =>
      ⟨fun crc first => ?_, fun crc again => ?_, fun crc other => ?_, fun crc own broken => ?_⟩⟩
    · rw [readImage_empty seat clear erased]; rfl
    · rw [readImage_otherFormat seat clear full zero other]; rfl
    · rw [readImage_badLength seat clear one bad]; rfl
    · rw [readImage_crcFirst seat clear one low high crc first, readCounted, first]
    · rw [readImage_crcAgain seat clear one low high crc again]; rfl
    · rw [readImage_crcOk seat clear one low high crc, checkImage_otherRole (s := readCounted s) seat clear other]; rfl
    · rw [readImage_crcOk seat clear one low high crc, checkImage_brokenItems (s := readCounted s) seat clear own
        broken]; rfl

/-! ### The station starts (R184) -/

/-- The state of a station with its profile taken and its line released, ahead of the start of its role's unit. -/
def lineStarted (r : Role) (items : List (Nat × List Byte)) (s : State) : State :=
  { s with
    params := (takeItems r items).params
    loader := { s.loader with phase := .running, clamped := (takeItems r items).clamped }
    lif := { s.lif with state := .idleWait, keepAlive := .running, silence := .running } }

theorem takeProfile_eq (r : Role) (items : List (Nat × List Byte)) (seat clear : Bool) (s : State) :
    takeProfile r items seat clear s = startRole r seat clear (lineStarted r items s) := rfl

/-- INSPECT starts in PURGE, which it leaves at once when INFEED_CLEAR reads active (R55; log 6). -/
theorem startRole_inspect (seat clear : Bool) (s : State) : startRole .inspect seat clear s =
    { s with ieu := { s.ieu with
      state := if !clear then .purge else if s.ieu.period.isSome then .ready else .noPeriod } } := by
  cases clear <;> rfl

/-- A head starts with its own K, on its way to IDLE (R90, R113; log 6). -/
theorem startRole_test (seat clear : Bool) (s : State) :
    startRole .test seat clear s = { s with
      inputs := { s.inputs with seat := seat }
      adm := { s.adm with kEff := s.params.k }
      tsq := (startRole .test seat clear s).tsq } ∧
    (startRole .test seat clear s).tsq.docket = s.tsq.docket ∧
    IdleOrOutOfService seat s.ilk.marks (startRole .test seat clear s) := by
  have goes := enterIdle_goes
    { s with inputs := { s.inputs with seat := seat }, adm := { s.adm with kEff := s.params.k } }
  obtain ⟨whole, docket, -⟩ := enterIdle_kept
    { s with inputs := { s.inputs with seat := seat }, adm := { s.adm with kEff := s.params.k } }
  exact ⟨whole, docket, goes⟩

theorem startRole_dispose (seat clear : Bool) (s : State) : startRole .dispose seat clear s = s := rfl

/-- Settles O13: the image passes every check, so its items are taken and the line is released; then the role's unit. -/
theorem goodProfileStartsTheStation : Obligations.GoodProfileStartsTheStation := by
  intro r im items seat clear s reading role one low high crc own good
  refine ⟨startRole r seat clear (lineStarted r items (readCounted s)), ?_, ?_⟩
  · rw [execProfileReadComplete_reads seat clear reading role, readImage_crcOk seat clear one low high crc,
      checkImage_good (s := readCounted s) seat clear own good, takeProfile_eq]
  · cases r with
    | inspect =>
      rw [startRole_inspect]
      exact ⟨rfl, rfl, rfl, ⟨rfl, rfl, rfl, rfl, rfl, rfl, rfl⟩, fun _ => ⟨rfl, rfl, rfl⟩, nofun, nofun⟩
    | test =>
      obtain ⟨whole, docket, goes⟩ := startRole_test seat clear (lineStarted .test items (readCounted s))
      generalize startRole .test seat clear (lineStarted .test items (readCounted s)) = t at whole docket goes ⊢
      rw [whole] at goes ⊢
      exact ⟨rfl, rfl, rfl, ⟨rfl, rfl, rfl, rfl, rfl, rfl, rfl⟩, nofun, fun _ => ⟨rfl, rfl, rfl, docket, goes⟩, nofun⟩
    | dispose =>
      rw [startRole_dispose]
      exact ⟨rfl, rfl, rfl, ⟨rfl, rfl, rfl, rfl, rfl, rfl, rfl⟩, nofun, nofun, fun _ => ⟨rfl, rfl, rfl⟩⟩

end Sys2Proof.Machine
end

section
/-! The items of the profile (R183, Table 11-3; logs 18 and 41): the numbers with their table, then the class, lot and
plant mark items, then which of them a station of a role takes. -/

namespace Sys2Proof.Machine

/-! ### What an item of the station leaves (log 18) -/

section
variable (t : Taken) (id : Nat) (bad : Bool) (p : Params)

theorem Taken.put_clamped : (t.put id bad p).clamped = true ↔ t.clamped = true ∨ bad = true ∨ id ∈ t.seen := by
  simp [Taken.put, or_assoc]

/-- A bad item sets the status. -/
theorem Taken.put_bad : t.put id true p = { params := p, clamped := true, seen := id :: t.seen } := by
  simp [Taken.put]

end

theorem outside_iff (lo hi v : Nat) : outside lo hi v = true ↔ v < lo ∨ hi < v := by simp [outside]

/-! ### Numeric items -/

/-- The numeric item of an identifier (Table 11-3). -/
def numItem (id : Nat) : Option NumItem := (stationItem id).or (headItem id)

/-- The identifiers of numeric items lie below those of the tables, and none is the plant mark's. -/
theorem numItem_range {id : Nat} {n : NumItem} (h : numItem id = some n) : id < 0x38 ∧ id ≠ 0x1C := by
  refine ⟨Nat.lt_of_not_le fun above => ?_, fun mark => ?_⟩
  · obtain ⟨k, rfl⟩ := Nat.exists_eq_add_of_le' above
    exact nomatch (show numItem (k + 0x38) = none from rfl).symm.trans h
  · subst mark
    exact nomatch h

/-- The default of every numeric parameter is the one it has ahead of the items. -/
theorem numItem_dflt {id : Nat} {n : NumItem} (h : numItem id = some n) : n.put {} n.dflt = {} := by
  have each : ∀ i < 0x38, ∀ m ∈ numItem i, m.put {} m.dflt = {} := by decide
  exact each id (numItem_range h).1 n h

section
variable (r : Role) (t : Taken) {id : Nat} (v : List Byte) {n : NumItem} (h : numItem id = some n)
include h

theorem takeItem_number : takeItem r t (id, v) =
    if n.role == none || n.role == some r then takeNumber n id v t else t.skip := by
  obtain ⟨below, mark⟩ := numItem_range h
  have cls : ¬ 0x40 ≤ id := by omega
  have lot : ¬ 0x50 ≤ id := by omega
  have found : (stationItem id).or (headItem id) = some n := h
  simp [takeItem, cls, lot, mark, found]

theorem takeItem_number_own (own : n.role = none ∨ n.role = some r) :
    takeItem r t (id, v) = takeNumber n id v t := by
  rw [takeItem_number r t v h, if_pos]
  simpa using own

theorem takeItem_number_other (all : n.role ≠ none) (own : n.role ≠ some r) : takeItem r t (id, v) = t.skip := by
  rw [takeItem_number r t v h, if_neg]
  simp [all, own]

end

theorem takeNumber_wide (n : NumItem) (id : Nat) (v : List Byte) (t : Taken) (wide : 4 < v.length) :
    takeNumber n id v t = { params := n.put t.params n.dflt, clamped := true, seen := id :: t.seen } :=
  (if_pos wide).trans (t.put_bad id _)

theorem takeNumber_fits (n : NumItem) (id : Nat) (v : List Byte) (t : Taken) (fits : v.length ≤ 4) :
    takeNumber n id v t = t.put id (outside n.lo n.hi (beNat v)) (n.put t.params (clamp n.lo n.hi (beNat v))) :=
  if_neg (Nat.not_lt.mpr fits)

/-! ### Class items -/

section
variable (r : Role) (t : Taken) (i : Nat) (v : List Byte)

theorem takeItem_class (small : i < 8) : takeItem r t (0x40 + i, v) =
    if r == .inspect then takeClass (0x40 + i) v t else t.skip := by
  have low : 0x40 ≤ 0x40 + i := Nat.le_add_right ..
  have high : 0x40 + i ≤ 0x47 := by omega
  simp only [takeItem, low, high, decide_true, Bool.and_self, if_true]

theorem takeClass_bad (width : v.length ≠ 8) : takeClass (0x40 + i) v t =
    t.put (0x40 + i) true { t.params with classes := t.params.classes.set i {} } := by
  rw [takeClass, if_pos (bne_iff_ne.mpr width), Nat.add_sub_cancel_left]

theorem takeClass_good (width : v.length = 8) : takeClass (0x40 + i) v t =
    t.put (0x40 + i) (classClamped v) { t.params with classes := t.params.classes.set i (classEntryOf v) } := by
  rw [takeClass, if_neg (by simp [width]), Nat.add_sub_cancel_left]

/-! ### Lot items -/

theorem takeItem_lot (small : i < 16) : takeItem r t (0x50 + i, v) =
    if r == .inspect then takeLot (0x50 + i) v t else t.skip := by
  have cls : ¬ 0x50 + i ≤ 0x47 := by omega
  have low : 0x50 ≤ 0x50 + i := Nat.le_add_right ..
  have high : 0x50 + i ≤ 0x5F := by omega
  simp only [takeItem, cls, low, high, decide_true, decide_false, Bool.and_self, Bool.and_false, Bool.false_eq_true,
    if_true, if_false]

theorem takeLot_bad (bad : v.length ≠ 14 ∨ lotBad v = true) : takeLot (0x50 + i) v t =
    t.put (0x50 + i) true { t.params with lots := t.params.lots.set i {} } := by
  rw [takeLot, if_pos (by simpa using bad), Nat.add_sub_cancel_left]

theorem takeLot_good (width : v.length = 14) (good : lotBad v = false) : takeLot (0x50 + i) v t =
    t.put (0x50 + i) (lotClamped v) { t.params with lots := t.params.lots.set i (lotEntryOf v) } := by
  rw [takeLot, if_neg (by simp [width, good]), Nat.add_sub_cancel_left]

/-! ### The plant mark -/

theorem takeItem_plantMark : takeItem r t (0x1C, v) =
    if r == .dispose then takePlantMark 0x1C v t else t.skip := rfl

theorem plantMark_iff : (2 ≤ v.length && v.length ≤ 6 && v.all isMfrChar) = true ↔
    2 ≤ v.length ∧ v.length ≤ 6 ∧ ∀ c ∈ v, UpperOrDigit c := by
  simp [isMfrChar_iff, and_assoc]

theorem takePlantMark_good (good : 2 ≤ v.length ∧ v.length ≤ 6 ∧ ∀ c ∈ v, UpperOrDigit c) :
    takePlantMark 0x1C v t = t.put 0x1C false { t.params with plantMark := v } :=
  if_pos ((plantMark_iff v).mpr good)

theorem takePlantMark_bad (bad : ¬ (2 ≤ v.length ∧ v.length ≤ 6 ∧ ∀ c ∈ v, UpperOrDigit c)) :
    takePlantMark 0x1C v t = { params := { t.params with plantMark := ascii "RQ" }, clamped := true
                               seen := 0x1C :: t.seen } :=
  (if_neg fun good => bad ((plantMark_iff v).mp good)).trans (t.put_bad ..)

end

/-! ### The fields of the tables' items -/

theorem classEntryOf_eq (v : List Byte) : classEntryOf v =
    { defined := true
      intervalYears := max 1 (min 15 (beNat (v.take 1)))
      holdTime := max 10 (min 300 (beNat ((v.drop 1).take 2)))
      ratioLimit := max 100 (min 2000 (beNat ((v.drop 3).take 2)))
      massLossLimit := min 10000 (beNat ((v.drop 5).take 2))
      reeApplies := decide (beNat (v.drop 7) ≠ 0) } := by
  simp [classEntryOf, clamp, bne, beq_eq_decide]

theorem classClamped_iff (v : List Byte) : classClamped v = true ↔
    beNat (v.take 1) < 1 ∨ 15 < beNat (v.take 1) ∨ beNat ((v.drop 1).take 2) < 10 ∨ 300 < beNat ((v.drop 1).take 2) ∨
    beNat ((v.drop 3).take 2) < 100 ∨ 2000 < beNat ((v.drop 3).take 2) ∨ 10000 < beNat ((v.drop 5).take 2) ∨
    1 < beNat (v.drop 7) := by
  simp only [classClamped, Bool.or_eq_true, outside_iff, decide_eq_true_eq, or_assoc]

theorem anyOr_eq (n : Nat) : anyOr n = if n = 0xFF then none else some n := by simp [anyOr]

theorem lotEntryOf_eq (v : List Byte) : lotEntryOf v =
    { valid := true
      mfr := if v.take 3 = [0xFF, 0xFF, 0xFF] then none else some (v.take 3)
      mfgYear := if beNat ((v.drop 3).take 1) = 0xFF then none else some (beNat ((v.drop 3).take 1))
      serial := if beNat ((v.drop 4).take 4) = 0xFFFFFFFF ∧ beNat ((v.drop 8).take 4) = 0xFFFFFFFF then none
        else some (min (beNat ((v.drop 4).take 4)) 999999999, min (beNat ((v.drop 8).take 4)) 999999999)
      cls := if beNat ((v.drop 12).take 1) = 0xFF then none else some (beNat ((v.drop 12).take 1))
      condemn := decide (beNat (v.drop 13) = 1) } := by
  simp [lotEntryOf, anyOr_eq, beq_eq_decide]

theorem lotBad_iff (v : List Byte) : lotBad v = true ↔
    (¬ v.take 3 = [0xFF, 0xFF, 0xFF] ∧ ¬ ∀ c ∈ v.take 3, UpperOrDigit c) ∨
    (99 < beNat ((v.drop 3).take 1) ∧ beNat ((v.drop 3).take 1) ≠ 0xFF) ∨
    ((beNat ((v.drop 12).take 1) < 1 ∨ 8 < beNat ((v.drop 12).take 1)) ∧ beNat ((v.drop 12).take 1) ≠ 0xFF) ∨
    1 < beNat (v.drop 13) := by
  have maker : (v.take 3).all isMfrChar = true ↔ ∀ c ∈ v.take 3, UpperOrDigit c := by
    simp only [List.all_eq_true, isMfrChar_iff]
  simp only [lotBad, Bool.or_eq_true, Bool.and_eq_true, bne_iff_ne, Bool.not_eq_true', ← Bool.not_eq_true, maker,
    outside_iff, decide_eq_true_eq, or_assoc, ne_eq]

/-- A bound is clamped unless both read ANY. -/
theorem lotClamped_iff (v : List Byte) : lotClamped v = true ↔
    ¬ (beNat ((v.drop 4).take 4) = 0xFFFFFFFF ∧ beNat ((v.drop 8).take 4) = 0xFFFFFFFF) ∧
    (999999999 < beNat ((v.drop 4).take 4) ∨ 999999999 < beNat ((v.drop 8).take 4)) := by
  unfold lotClamped
  rw [lotEntryOf_eq]
  by_cases any : beNat ((v.drop 4).take 4) = 0xFFFFFFFF ∧ beNat ((v.drop 8).take 4) = 0xFFFFFFFF
  · simp [any]
  · simp [any]

/-! ### The statement -/

/-- An identifier that Table 11-3 does not have sets the status alone. -/
theorem takeItem_unknown (r : Role) (t : Taken) {id : Nat} (v : List Byte) (number : numItem id = none)
    (cls : ¬ (0x40 ≤ id ∧ id ≤ 0x47)) (lot : ¬ (0x50 ≤ id ∧ id ≤ 0x5F)) (mark : id ≠ 0x1C) :
    takeItem r t (id, v) = t.skip := by
  have none' : (stationItem id).or (headItem id) = none := number
  simp only [takeItem, ← Bool.decide_and, cls, lot, decide_false, beq_eq_false_iff_ne.mpr mark, none',
    Bool.false_eq_true, if_false]

/-- Settles O14: the table of the numbers is computed; an item goes to its place when it is of the station's role, and
to no place otherwise. -/
theorem profileItemsAreTaken : Obligations.ProfileItemsAreTaken := by
  refine ⟨rfl, fun id n => numItem_dflt, fun p v => List.map_inj_left.mp rfl,
    fun r t id v n found => ⟨fun own fits => ?number, fun own wide => ?wide, takeItem_number_other r t v found⟩,
    fun r t i v small => ?cls, fun r t i v small => ?lot, fun r t v => ?mark,
    fun r t id v number => takeItem_unknown r t v number⟩
  case number =>
    rw [takeItem_number_own r t v found own, takeNumber_fits n id v t fits]
    refine ⟨rfl, ?_, rfl⟩
    rw [Taken.put_clamped, outside_iff, or_assoc]
  case wide => rw [takeItem_number_own r t v found own, takeNumber_wide n id v t wide]
  case cls =>
    refine ⟨fun role width => ?_, fun role width => ?_, fun other => ?_⟩
    · subst role
      dsimp only
      rw [(takeItem_class _ t i v small).trans (if_pos rfl), takeClass_good t i v width, classEntryOf_eq]
      refine ⟨rfl, ?_, rfl⟩
      rw [Taken.put_clamped, classClamped_iff, or_comm (b := _ ∈ t.seen)]
    · subst role
      dsimp only
      rw [(takeItem_class _ t i v small).trans (if_pos rfl), takeClass_bad t i v width, Taken.put_bad]
      exact ⟨rfl, rfl, rfl⟩
    · exact (takeItem_class r t i v small).trans (if_neg (by simpa using other))
  case lot =>
    refine ⟨fun role width good => ?_, fun role bad => ?_, fun other => ?_⟩
    · subst role
      have fine : lotBad v = false := Bool.eq_false_iff.mpr fun bad => good ((lotBad_iff v).mp bad)
      dsimp only
      rw [(takeItem_lot _ t i v small).trans (if_pos rfl), takeLot_good t i v width fine, lotEntryOf_eq]
      refine ⟨rfl, ?_, rfl⟩
      rw [Taken.put_clamped, lotClamped_iff, or_comm (b := _ ∈ t.seen)]
    · subst role
      dsimp only
      rw [(takeItem_lot _ t i v small).trans (if_pos rfl), takeLot_bad t i v (bad.imp_right (lotBad_iff v).mpr),
        Taken.put_bad]
      exact ⟨rfl, rfl, rfl⟩
    · exact (takeItem_lot r t i v small).trans (if_neg (by simpa using other))
  case mark =>
    refine ⟨fun role good => ?_, fun role bad => ?_, fun other => ?_⟩
    · subst role
      dsimp only
      rw [(takeItem_plantMark _ t v).trans (if_pos rfl), takePlantMark_good t v good]
      refine ⟨rfl, ?_, rfl⟩
      rw [Taken.put_clamped]
      simp
    · subst role
      dsimp only
      rw [(takeItem_plantMark _ t v).trans (if_pos rfl), takePlantMark_bad t v bad]
      exact ⟨rfl, rfl, rfl⟩
    · exact (takeItem_plantMark r t v).trans (if_neg (by simpa using other))

end Sys2Proof.Machine
end

section
/-! The lamp (R157, R185, Table 11-5): what LAMP_REPEAT sends, and which indication is shown. -/

namespace Sys2Proof.Machine

section
variable {s : State}

theorem execLampRepeat_reset (held : s.loader.phase = .reset) : exec .lampRepeat s = .next s :=
  if_pos (beq_iff_eq.mpr held)

theorem execLampRepeat_sends (released : s.loader.phase ≠ .reset) :
    exec .lampRepeat s = .next { s with lamp := some (lampShown s) } :=
  if_neg (mt beq_iff_eq.mp released)

/-! ### The order of the indications -/

/-- The indications of a role's unit, in the order of Table 11-5, behind the start-up fault and ADDRESS_CONFLICT. -/
def unitIndications (r : Role) (s : State) : List (Option LampWord) :=
  let stale := lampAddr s.lif.staleAddr 29
  match r with
  | .inspect =>
    [lampIf s.lif.roleConflict 27, lampIf s.ilk.stopFlag 1, lampIf s.ieu.directFault 24,
     lampIf (8 ≤ s.ieu.stall) 31, stale]
  | .test => [headLamp s, lampAddr s.adm.mismatch 30, stale]
  | .dispose => [lampIf s.lif.roleConflict 27, lampIf s.ilk.stopFlag 1, lampCause s.dsu.halt, stale]

/-- The first of some indications that stands, code 0 when none does. -/
def firstStanding (l : List (Option LampWord)) : LampWord := (l.findSome? id).getD { code := 0, addr := none }

theorem lampShown_role {r : Role} (role : s.role = some r) : lampShown s = firstStanding
    (lampCause s.loader.fault :: lampIf (s.lif.state == .addressConflict) 28 :: unitIndications r s) := by
  unfold lampShown
  rw [role]
  cases r <;> rfl

/-- A start-up fault stands first for every role, and for a station of none. -/
theorem lampShown_fault {c : Cause} (fault : s.loader.fault = some c) :
    lampShown s = { code := c.code, addr := none } := by
  unfold lampShown
  rw [fault]
  cases s.role with
  | none => rfl
  | some r => cases r <;> rfl

section
variable {r : Role} (role : s.role = some r) (fine : s.loader.fault = none)
include role fine

theorem lampShown_addressConflict (conflict : s.lif.state = .addressConflict) :
    lampShown s = { code := 28, addr := none } := by
  rw [lampShown_role role, fine, conflict]
  rfl

theorem lampShown_unit (free : s.lif.state ≠ .addressConflict) : lampShown s = firstStanding (unitIndications r s) := by
  rw [lampShown_role role, fine, beq_eq_false_iff_ne.mpr free]
  rfl

end

/-! ### The indications of the units -/

theorem firstStanding_if (b : Bool) (code : Nat) (l : List (Option LampWord)) : firstStanding (lampIf b code :: l) =
    if b then { code := code, addr := none } else firstStanding l := by
  cases b <;> rfl

theorem firstStanding_addr (o : Option Addr) (code : Nat) (l : List (Option LampWord)) :
    firstStanding (lampAddr o code :: l) =
      match o with
      | some a => { code := code, addr := some a }
      | none => firstStanding l := by
  cases o <;> rfl

theorem unit_roleConflict {r : Role} (station : r ≠ .test) (conflict : s.lif.roleConflict = true) :
    firstStanding (unitIndications r s) = { code := 27, addr := none } := by
  cases r with
  | test => exact absurd rfl station
  | inspect | dispose => rw [unitIndications, conflict]; rfl

theorem unit_stop {r : Role} (station : r ≠ .test) (free : s.lif.roleConflict = false) (stop : s.ilk.stopFlag = true) :
    firstStanding (unitIndications r s) = { code := 1, addr := none } := by
  cases r with
  | test => exact absurd rfl station
  | inspect | dispose => rw [unitIndications, free, stop]; rfl

section
variable (free : s.lif.roleConflict = false) (run : s.ilk.stopFlag = false)
include free run

theorem unit_inspect : firstStanding (unitIndications .inspect s) =
    if s.ieu.directFault then { code := 24, addr := none }
    else if 8 ≤ s.ieu.stall then { code := 31, addr := none }
    else match s.lif.staleAddr with
      | some a => { code := 29, addr := some a }
      | none => { code := 0, addr := none } := by
  rw [unitIndications, free, run]
  simp only [firstStanding_if, firstStanding_addr, decide_eq_true_eq, Bool.false_eq_true, if_false]
  rfl

theorem unit_dispose : firstStanding (unitIndications .dispose s) =
    match s.dsu.halt, s.lif.staleAddr with
    | some c, _ => { code := c.code, addr := none }
    | none, some a => { code := 29, addr := some a }
    | none, none => { code := 0, addr := none } := by
  rw [unitIndications, free, run]
  cases s.dsu.halt with
  | some c => rfl
  | none => cases s.lif.staleAddr <;> rfl

end

/-- A head shows the response in force in SAFE (R157). -/
theorem unit_safe {c : Cause} (safe : s.tsq.state = some .safe) (inForce : s.ilk.inForce = some c) :
    firstStanding (unitIndications .test s) = { code := c.code, addr := none } := by
  have shown : headLamp s = lampCause s.ilk.inForce := if_pos (beq_iff_eq.mpr safe)
  rw [unitIndications, shown, inForce]
  rfl

/-- A head shows in OUT_OF_SERVICE what took it there (R157). -/
theorem unit_outOfService {c : Cause} (out : s.tsq.state = some .outOfService) (cause : s.tsq.oosCause = some c) :
    firstStanding (unitIndications .test s) = { code := c.code, addr := none } := by
  have shown : headLamp s = lampCause s.tsq.oosCause := by rw [headLamp, out]; rfl
  rw [unitIndications, shown, cause]
  rfl

theorem unit_head (safe : s.tsq.state ≠ some .safe) (out : s.tsq.state ≠ some .outOfService) :
    firstStanding (unitIndications .test s) =
      match s.adm.mismatch, s.lif.staleAddr with
      | some a, _ => { code := 30, addr := some a }
      | none, some a => { code := 29, addr := some a }
      | none, none => { code := 0, addr := none } := by
  have dark : headLamp s = none := (if_neg (mt beq_iff_eq.mp safe)).trans (if_neg (mt beq_iff_eq.mp out))
  rw [unitIndications, dark]
  cases s.adm.mismatch with
  | some a => rfl
  | none => cases s.lif.staleAddr <;> rfl

end

/-- Settles O15: behind the start-up fault and ADDRESS_CONFLICT the first indication of the role's unit is shown. -/
theorem lampShowsTheFirstStanding : Obligations.LampShowsTheFirstStanding := by
  refine ⟨fun s => execLampRepeat_sends, fun s => execLampRepeat_reset, fun s c => lampShown_fault,
    fun s r role fine => ⟨lampShown_addressConflict role fine, fun free => ?_⟩⟩
  rw [lampShown_unit role fine free]
  refine ⟨unit_roleConflict, unit_stop, ?_, ?_, ?_, ?_, ?_⟩
  · rintro rfl; exact unit_inspect
  · rintro rfl; exact unit_dispose
  · rintro c rfl; exact unit_safe
  · rintro c rfl; exact unit_outOfService
  · rintro rfl; exact unit_head

end Sys2Proof.Machine
end

section
/-! The queue of commands (logs 1, 2): the step takes the front command, and every command answers a next state with the
queue as it was. A command which its state does not let happen answers that state itself. -/

namespace Sys2Proof.Machine

theorem step_front (c : Instr) (rest : List Instr) (s : State) :
    step { s with pending := c :: rest } = exec c { s with pending := rest } := rfl

theorem step_idle {s : State} (empty : s.pending = []) : step s = .next s := by
  unfold step
  rw [empty]

/-- Settles O1: the step is a choice on the queue. -/
theorem stepRunsFrontCommand : Obligations.StepRunsFrontCommand := ⟨step_front, fun _ => step_idle⟩

/-- The outcome is a next state, and the queue of commands is as in `s`. -/
def QueueKept (s : State) (o : Out) : Prop := ∃ t, o = .next t ∧ t.pending = s.pending

section
variable {s : State}

theorem queueKept_next {t : State} (kept : t.pending = s.pending) : QueueKept s (.next t) := ⟨t, rfl, kept⟩

/-- A command that its state does not let happen changes nothing (log 1). -/
theorem queueKept_same : QueueKept s (.next s) := queueKept_next rfl

/-- Both ways of a choice. -/
theorem queueKept_ite {c : Prop} [Decidable c] {a b : Out} (yes : QueueKept s a) (no : QueueKept s b) :
    QueueKept s (if c then a else b) := by
  split
  · exact yes
  · exact no

/-- A command with a condition: what it does when the condition holds keeps the queue. -/
theorem queueKept_guarded {c : Prop} [Decidable c] {t : State} (kept : t.pending = s.pending) :
    QueueKept s (if c then .next t else .next s) := queueKept_ite (queueKept_next kept) queueKept_same

/-- An event of a head, and nothing at another station. -/
theorem queueKept_atHead {f : State → State} (keeps : ∀ u, (f u).pending = u.pending) :
    QueueKept s (.next (atHead f s)) := queueKept_next (atHead_pending f keeps s)

/-- A frame received, whatever its taking does (R42). -/
theorem queueKept_receive (k : MsgKind) (f : Frame) {take : State → State}
    (keeps : ∀ u, (take u).pending = u.pending) : QueueKept s (.next (receive k f take s)) :=
  queueKept_next (receive_pending k f take keeps s)

/-- A terminal entry, whatever it does once its checks have passed (R60). -/
theorem queueKept_entry (l : PortLine) (form : List Text → Bool) {act : List Text → State → State}
    (keeps : ∀ args u, (act args u).pending = u.pending) :
    QueueKept s (.next (terminalLine l (entryChecks form act) s)) :=
  queueKept_next (terminalLine_pending l _ (fun b u => entryChecks_pending form act b keeps u) s)

/-! ### The commands that read what the state holds -/

theorem execProfileReadComplete_queueKept (im : List Byte) (seat infeedClear : Bool) :
    QueueKept s (execProfileReadComplete im seat infeedClear s) := by
  unfold execProfileReadComplete
  split
  · exact queueKept_next (readImage_pending _ im seat infeedClear s)
  · exact queueKept_same

theorem execPost_queueKept (read : PostWord) : QueueKept s (execPost read s) := by
  unfold execPost
  split
  · exact queueKept_guarded (writePost_pending _ read s)
  · exact queueKept_same

theorem execMessageSend_queueKept (read : List Byte) : QueueKept s (execMessageSend read s) := by
  unfold execMessageSend
  split
  · exact queueKept_guarded (sendFrame_pending read _ _ s)
  · exact queueKept_same

theorem execAcceptFieldRead_queueKept (read : Byte) : QueueKept s (execAcceptFieldRead read s) := by
  unfold execAcceptFieldRead
  split
  · exact queueKept_guarded (readAccept_pending read _ s)
  · exact queueKept_same

theorem execRoundEnd_queueKept (posts : List PostWord) (cell263 : Bool) :
    QueueKept s (execRoundEnd posts cell263 s) := by
  unfold execRoundEnd
  split
  · exact queueKept_guarded (completeRound_pending _ _ posts cell263 s)
  · exact queueKept_same

theorem execSampleTick_queueKept (pins : Pins) (x : Sample) : QueueKept s (execSampleTick pins x s) := by
  unfold execSampleTick
  split
  · exact queueKept_next (headSample_pending pins x s)
  · exact queueKept_next (disposeTick_pending pins s)
  · exact queueKept_next (State.withInputs_pending s pins)
  · exact queueKept_same

theorem execStopReported_queueKept : QueueKept s (execStopReported s) := by
  unfold execStopReported
  split
  · exact queueKept_same
  · exact queueKept_ite queueKept_same (queueKept_next (stopReported_pending _ s))
  · exact queueKept_same

theorem execStopEnded_queueKept : QueueKept s (execStopEnded s) := by
  unfold execStopEnded
  split
  · exact queueKept_same
  · exact queueKept_guarded (stopEnded_pending _ s)
  · exact queueKept_same

theorem execPulseEnd_queueKept (c : ChannelName) : QueueKept s (execPulseEnd c s) := by
  refine queueKept_ite ?_ queueKept_same
  cases c with
  | stage | infeed | bypass => exact queueKept_next (State.withIeu_pending s _)

theorem execTerminalReplySent_queueKept : QueueKept s (execTerminalReplySent s) := by
  unfold execTerminalReplySent
  split
  · exact queueKept_next (State.withPorts_pending s _)
  · exact queueKept_same

theorem completeIfDone_pending (u : State) :
    (if u.responseDone then completeResponse u else u).pending = u.pending := by
  split
  · exact completeResponse_pending u
  · rfl

/-! ### The commands -/

theorem exec_queueKept (s : State) : ∀ c : Instr, QueueKept s (exec c s)
  | .powerOnReset => queueKept_next (resetState_pending .powerOn s)
  | .pinReset => queueKept_ite queueKept_same (queueKept_next (resetState_pending .pin s))
  | .resetRelease a r high => queueKept_guarded (releaseReset_pending a r high s)
  | .profileReadComplete im seat infeedClear => execProfileReadComplete_queueKept im seat infeedClear
  | .idleSpan cells => queueKept_guarded (readIdle_pending cells s)
  | .callMade read => queueKept_guarded (enterRound_pending read s)
  | .callJoined read => queueKept_guarded (enterRound_pending read s)
  | .post read => execPost_queueKept read
  | .incompleteRoundEnd => queueKept_guarded (endIncomplete_pending s)
  | .contention read => queueKept_guarded (contend_pending read s)
  | .messageSend read => execMessageSend_queueKept read
  | .acceptFieldRead read => execAcceptFieldRead_queueKept read
  | .messageDropped => queueKept_next (dropMessage_pending s)
  | .docketOffer f read => queueKept_receive _ f (offerFor_pending f read)
  | .releaseCall f read => queueKept_receive _ f (callFor_pending f read)
  | .docketDirect f read => queueKept_receive _ f (directFor_pending f read)
  | .docketReturn f read => queueKept_receive _ f (returnFor_pending f read)
  | .stationCard f => queueKept_receive _ f (cardFor_pending f)
  | .verdictNote f => queueKept_receive _ f (noteFor_pending f)
  | .roundEnd posts cell263 => execRoundEnd_queueKept posts cell263
  | .pacingExpiry => queueKept_next (State.withLif_pending s _)
  | .keepAliveExpiry => queueKept_next (State.withLif_pending s _)
  | .silenceExpiry o => queueKept_guarded (silenceExpiry_pending o s)
  | .sampleTick pins x => execSampleTick_queueKept pins x
  | .responseComplete => queueKept_atHead completeIfDone_pending
  | .estop o => queueKept_atHead (estopRead_pending o)
  | .psw o => queueKept_atHead (pswEdge_pending o)
  | .abort o => queueKept_atHead (abortEdge_pending o)
  | .lidOpen o => queueKept_atHead (lidRead_pending o)
  | .seatActive o => queueKept_atHead (seatRead_pending o)
  | .lidClosed o => queueKept_atHead (lidClosedRead_pending o)
  | .fillComplete o => queueKept_atHead (fillRead_pending o)
  | .loadTimeout o => queueKept_atHead (loadExpiry_pending o)
  | .fillTimeout o => queueKept_atHead (fillExpiry_pending o)
  | .rampTimeout o => queueKept_atHead (rampExpiry_pending o)
  | .holdTimerExpiry o => queueKept_atHead (holdExpiry_pending o)
  | .drainTimerExpiry o => queueKept_atHead (drainExpiry_pending o)
  | .urgentFlagSet o => queueKept_atHead (patienceExpiry_pending o)
  | .unloadComplete o => queueKept_atHead (unloadRead_pending o)
  | .unloadTimeout o => queueKept_atHead (unloadExpiry_pending o)
  | .clearEdge o => queueKept_atHead (clearTaken_pending o)
  | .stopReported => execStopReported_queueKept
  | .stopEnded => execStopEnded_queueKept
  | .infeedClear => queueKept_guarded (State.withIeu_pending s _)
  | .readerLine l => queueKept_guarded (readerRead_pending l s)
  | .period l => queueKept_entry l _ takePeriod_pending
  | .mass l => queueKept_entry l _ takeMass_pending
  | .find l => queueKept_entry l _ takeFind_pending
  | .close l => queueKept_entry l _ takeClose_pending
  | .cancel l => queueKept_entry l _ takeCancel_pending
  | .clearEntry l => queueKept_entry l _ takeClear_pending
  | .unknownKeyword l => queueKept_entry l _ fun _ _ => rfl
  | .docketJoin => queueKept_guarded (tryJoin_pending s)
  | .pulseEnd c => execPulseEnd_queueKept c
  | .terminalReplySent => execTerminalReplySent_queueKept
  | .markReaderLine l => queueKept_guarded (markRead_pending l s)
  | .linkClear r => queueKept_guarded (linkClear_pending r s)
  | .linkLoad r => queueKept_guarded (linkLoad_pending r s)
  | .linkQuery r => queueKept_guarded (linkQuery_pending r s)
  | .linkStrike r => queueKept_guarded (linkStrike_pending r s)
  | .strikeTimeout => queueKept_guarded (strikeExpiry_pending s)
  | .punchDone => queueKept_guarded (punchDone_pending s)
  | .punchTimeout => queueKept_guarded (punchExpiry_pending s)
  | .punchPulseEnd => queueKept_guarded (State.withDsu_pending s _)
  | .laneReleaseEnd => queueKept_guarded (laneEnd_pending s)
  | .disposeClear r => queueKept_guarded (panelClear_pending r s)
  | .arrivalTimeout i => queueKept_guarded (finishMissing_pending i s)
  | .callTimeout => queueKept_guarded (callExpiry_pending s)
  | .recordLineSent cts => queueKept_guarded (sendRecord_pending cts s)
  | .lampRepeat => queueKept_ite queueKept_same (queueKept_next (State.withLamp_pending s _))

end

/-- Settles O2: each command is its condition and one operation, and no operation touches the queue. -/
theorem everyCommandAnswersAState : Obligations.EveryCommandAnswersAState := fun c s => exec_queueKept s c

end Sys2Proof.Machine
end
